-- ==== Sys2Proof/Word.lean ====
section
/-! DEFINITION. The word types of the 65C816 (`00_scope.md` R6, R8): bytes, 16-bit words and 24-bit addresses.
The bit-field, extension and byte-order helpers stand in `Machine/Bits.lean`. -/

namespace Sys2Proof

/-- The addressable unit, 8 bits (R6). -/
abbrev Byte := BitVec 8

/-- A 16-bit datum or register (R6). -/
abbrev Word := BitVec 16

/-- An address of the 24-bit address space (R6). -/
abbrev Addr := BitVec 24

end Sys2Proof
end

