-- ==== Sys2Proof/Config.lean ====
section
/-! DEFINITION. The free values: what the spec calls "any value" (`10_state.md` R43, `40_adc_sbc.md` R176 and R177,
`93_implementation_defined.md` I1, I3, I4, I5), as opaque constants applied to the counter `State.freeCount`, and the answers of
devices, which are the platform's (`92_eei_decisions.md` D3). Nothing can be proved of such a value and a claim holds whatever
it is (log 3, log 8, log 24). -/

namespace Sys2Proof.Machine

/-- One access of a byte, as the platform sees it (`20_memory.md` R80, R87). -/
inductive Access where
  | read (a : Addr)
  | write (a : Addr) (v : Byte)
  deriving DecidableEq, Repr

end Sys2Proof.Machine

namespace Sys2Proof.Config

/-- The `n`-th free bit: a flag the spec leaves unspecified. -/
opaque freeBit : Nat → Bool

/-- The `n`-th free byte: half a register the spec leaves unspecified. -/
opaque freeByte : Nat → Byte

/-- The `n`-th free word: a 16-bit result or register the spec leaves unspecified. -/
opaque freeWord : Nat → Word

/-- What a read of a device answers (`Platform.mem`, `92_eei_decisions.md` D3): the platform's function of all accesses that devices
have had so far, reads and writes, newest first, each with the number of the step it was made in, then of the number of this step
and of the address (`20_memory.md` R83, R87; log 24). -/
opaque deviceByte : List (Nat × Machine.Access) → Nat → Addr → Byte

end Sys2Proof.Config
end

