-- ==== Sys2Proof/Machine/Bits.lean ====
section
/-! DEFINITION. Slices, concatenation and extension, as `00_scope.md` R9 and R11 name them. -/

namespace Sys2Proof

/-- `v[7:0]` (R9). -/
def lo8 (w : Word) : Byte := w.setWidth 8

/-- `v[15:8]` (R9). -/
def hi8 (w : Word) : Byte := w.extractLsb' 8 8

/-- `hi : lo`, the 16-bit value whose high byte is `hi` (R9). -/
def word (hi lo : Byte) : Word := hi ++ lo

/-- `b : w`, the 24-bit address in bank `b` (R9). -/
def addr (b : Byte) (w : Word) : Addr := b ++ w

/-- `bank(v) = v[23:16]` (R9). -/
def bankOf (a : Addr) : Byte := a.extractLsb' 16 8

/-- `v[15:0]`: the address inside the bank. -/
def offsetOf (a : Addr) : Word := a.setWidth 16

/-- `zext_16` of a byte (R11). -/
def zext16 (b : Byte) : Word := b.setWidth 16

/-- `zext_24` of a word (R11). -/
def zext24 (w : Word) : Addr := w.setWidth 24

/-- `sext_16` of a byte, the only sign extension of the instruction set (R11, `31_addressing_modes.md` R147). -/
def sext16 (b : Byte) : Word := b.signExtend 16

/-- `p` with bit `k` replaced by `b`. -/
def putBit (p : Byte) (k : Nat) (b : Bool) : Byte :=
  if b then p ||| (1#8 <<< k) else p &&& ~~~(1#8 <<< k)

/-- Bit `k` of `p` (R9). -/
def bitAt (p : Byte) (k : Nat) : Bool := p.getLsbD k

end Sys2Proof
end

