-- ==== Sys2Proof/Machine/State.lean ====
section
/-! DEFINITION. The machine's state: every piece of state of `10_state.md` R20 to R43, the platform's parameters of
`92_eei_decisions.md` as plain data, and the model's own counter of free values. -/

namespace Sys2Proof.Machine

/-- The hidden state `run` (`10_state.md` R41). -/
inductive RunState where
  | running
  /-- WAI sets it (`52_stp_wai.md` R383); a hardware interrupt ends it. -/
  | waiting
  /-- STP sets it (`52_stp_wai.md` R381); only RESET ends it. -/
  | stopped
  deriving DecidableEq, Repr

/-- A set of hardware interrupt requests (`10_state.md` R41). -/
structure Requests where
  abort : Bool
  irq : Bool
  nmi : Bool
  reset : Bool
  deriving DecidableEq, Repr

/-- What the platform does at one recognition point (`Platform.events`, decision D6): the requests it newly makes,
and whether it asserts the IRQ line. -/
structure PlatformEvent where
  abort : Bool
  nmi : Bool
  reset : Bool
  irqLine : Bool
  deriving DecidableEq, Repr

/-- What the platform has at an address (`Platform.mem`, decision D3). -/
inductive MemKind where
  /-- A read returns the last write. -/
  | ram
  /-- A write is ignored. -/
  | rom
  /-- Reads and writes are the platform's functions. -/
  | device
  deriving DecidableEq, Repr

/-- The addresses `first` to `last` and what the platform has there (`Platform.mem`, decision D3). -/
structure Region where
  first : Addr
  last : Addr
  kind : MemKind
  deriving DecidableEq, Repr

/-- Memory: cells at strictly rising addresses, none holding what an unlisted byte reads as (`Memory.wf`). -/
abbrev Memory := List Host.Cell

/-- The state of the machine. Registers are in capitals and flags in lower case, as in `00_scope.md` R12. -/
structure State where
  /-- The accumulator `C`: `A` is its low byte, `B` its high byte (R21, R22). -/
  C : Word
  /-- The data bank register (R26). -/
  DBR : Byte
  /-- The direct register (R25). -/
  D : Word
  /-- The program bank register (R27). -/
  K : Byte
  /-- The program counter (R28). -/
  PC : Word
  /-- The processor status register, `n v m x d i z c` from bit 7 down (R32). -/
  P : Byte
  /-- The stack pointer (R24). -/
  S : Word
  /-- The X index register (R23). -/
  X : Word
  /-- The Y index register (R23). -/
  Y : Word
  /-- The emulation flag (R33). -/
  e : Bool
  /-- Whether instructions are fetched (R41). -/
  run : RunState
  /-- The pending hardware requests (R41). -/
  pending : Requests
  /-- `Platform.events`: one entry for each recognition point to come (decision D6, log 6). -/
  events : List PlatformEvent
  /-- `Platform.vector_map`: vector byte address and the address fetched in its stead (decision D8, log 7). -/
  vectorMap : List (Addr × Addr)
  /-- The model's own counter of free values drawn (log 8). -/
  freeCount : Nat
  /-- `Platform.mem`, the kind of each address: the first region that holds it decides, and an address in none is RAM
  (decision D3, log 5). -/
  regions : List Region
  /-- The accesses that devices have had, reads and writes, newest first, each with the number of its step: what their functions
  may depend on (decision D3, `20_memory.md` R80, R87; log 24). -/
  deviceLog : List (Nat × Access)
  /-- The number of steps begun: a device may answer differently at each (log 24). -/
  deviceTime : Nat
  /-- Memory: the contents of RAM and ROM (`20_memory.md` R60). -/
  mem : Memory
  deriving DecidableEq, Repr

/-- The reasons to stop with a fault: none. No instruction of this hardware raises a fault (`00_scope.md` R15,
`60_exceptions.md` R421), so the type has no constructor. Safe. -/
inductive Fault where
  deriving DecidableEq, Repr

/-- The reasons to refuse an instruction. -/
inductive Refusal where
  /-- Raised by an arm of `exec` for an instruction without a meaning yet. No arm raises it: every opcode has its
  meaning (`30_encoding.md` R98). Safe. -/
  | notModelled (mnemonic : String)
  deriving DecidableEq, Repr

/-- What a meaning answers. -/
abbrev Result := Host.Outcome State Fault Refusal

/-- The set of no requests. -/
abbrev Requests.none : Requests := { abort := false, irq := false, nmi := false, reset := false }

/-- The machine right after RESET (`10_state.md` R43). `e`, `m`, `x`, `XH`, `YH`, `SH`, `i`, `d`, `K`, `DBR`, `D` and `run` are
the rule's; `PC` is the RESET vector as read from this memory; `C`, `XL`, `YL`, `SL`, `n`, `v`, `z`, `c` and the pending
requests, which the rule leaves open, are the model's (DESIGN CHOICE, unsafe, log 1). -/
def State.reset : State where
  C := 0x0000#16
  DBR := 0x00#8
  D := 0x0000#16
  K := 0x00#8
  PC := 0x0000#16
  P := 0x34#8
  S := 0x0100#16
  X := 0x0000#16
  Y := 0x0000#16
  e := true
  run := .running
  pending := Requests.none
  events := []
  vectorMap := []
  freeCount := 0
  regions := []
  deviceLog := []
  deviceTime := 0
  mem := []

end Sys2Proof.Machine
end

