-- ==== Sys2Proof/Machine/Registers.lean ====
section
/-! DEFINITION. The one way in and out of every register and flag: the halves of `10_state.md` R21, the flags of R32, and
writes that obey the forcing rule R36. -/

namespace Sys2Proof.Machine

/-! ### Flags (R32): bits 7 to 0 of `P` are `n v m x d i z c` -/

def State.n (s : State) : Bool := bitAt s.P 7
def State.v (s : State) : Bool := bitAt s.P 6
def State.m (s : State) : Bool := bitAt s.P 5
def State.x (s : State) : Bool := bitAt s.P 4
def State.d (s : State) : Bool := bitAt s.P 3
def State.i (s : State) : Bool := bitAt s.P 2
def State.z (s : State) : Bool := bitAt s.P 1
def State.c (s : State) : Bool := bitAt s.P 0

/-! ### Halves (R21): aliases of the same storage -/

def State.A (s : State) : Byte := lo8 s.C
def State.B (s : State) : Byte := hi8 s.C
def State.XL (s : State) : Byte := lo8 s.X
def State.XH (s : State) : Byte := hi8 s.X
def State.YL (s : State) : Byte := lo8 s.Y
def State.YH (s : State) : Byte := hi8 s.Y
def State.SL (s : State) : Byte := lo8 s.S
def State.SH (s : State) : Byte := hi8 s.S
def State.DL (s : State) : Byte := lo8 s.D
def State.DH (s : State) : Byte := hi8 s.D

/-! ### Writes that no forcing touches -/

def State.setC (s : State) (v : Word) : State := { s with C := v }
def State.setDBR (s : State) (v : Byte) : State := { s with DBR := v }
def State.setD (s : State) (v : Word) : State := { s with D := v }
def State.setK (s : State) (v : Byte) : State := { s with K := v }
def State.setPC (s : State) (v : Word) : State := { s with PC := v }
def State.setRun (s : State) (r : RunState) : State := { s with run := r }
def State.setPending (s : State) (r : Requests) : State := { s with pending := r }
def State.setEvents (s : State) (l : List PlatformEvent) : State := { s with events := l }
def State.setFreeCount (s : State) (k : Nat) : State := { s with freeCount := k }
def State.setRegions (s : State) (l : List Region) : State := { s with regions := l }
def State.setDeviceLog (s : State) (l : List (Nat × Access)) : State := { s with deviceLog := l }
def State.setDeviceTime (s : State) (k : Nat) : State := { s with deviceTime := k }
def State.setMem (s : State) (mem : Memory) : State := { s with mem := mem }

/-- Write bits of `P` other than `m` and `x`, which no forcing concerns. -/
def State.setFlags (s : State) (p : Byte) : State := { s with P := p }

/-- The value an index register takes when `w` is written to it: `XH` and `YH` stay `$00` when `x = 1` (R36). -/
def indexForced (x : Bool) (w : Word) : Word := if x then zext16 (lo8 w) else w

/-- The value `S` takes when `w` is written to it: `SH` stays `$01` when `e = 1` (R36). -/
def stackForced (e : Bool) (w : Word) : Word := if e then word 0x01#8 (lo8 w) else w

/-- The value `P` takes when `p` is written to it: `m` and `x` stay 1 when `e = 1` (R36). -/
def statusForced (e : Bool) (p : Byte) : Byte := if e then p ||| 0x30#8 else p

/-! ### Writes under the forcing rule (R36) -/

def State.setX (s : State) (w : Word) : State := { s with X := indexForced s.x w }
def State.setY (s : State) (w : Word) : State := { s with Y := indexForced s.x w }
def State.setS (s : State) (w : Word) : State := { s with S := stackForced s.e w }

/-- Write all of `P`: `m` and `x` are forced when `e = 1`, and `XH`, `YH` become `$00` when `x` is then 1. The forcing is
destructive (R36). -/
def State.setP (s : State) (p : Byte) : State :=
  { s with
    P := statusForced s.e p
    X := indexForced (bitAt (statusForced s.e p) 4) s.X
    Y := indexForced (bitAt (statusForced s.e p) 4) s.Y }

/-- Write `e`; entering emulation mode forces `m`, `x`, `SH`, `XH` and `YH` (R36). Leaving it clears nothing. -/
def State.setE (s : State) (b : Bool) : State :=
  { s with
    e := b
    P := statusForced b s.P
    S := stackForced b s.S
    X := indexForced (bitAt (statusForced b s.P) 4) s.X
    Y := indexForced (bitAt (statusForced b s.P) 4) s.Y }

/-! ### Single flags -/

def State.setN (s : State) (b : Bool) : State := s.setFlags (putBit s.P 7 b)
def State.setV (s : State) (b : Bool) : State := s.setFlags (putBit s.P 6 b)
def State.setDec (s : State) (b : Bool) : State := s.setFlags (putBit s.P 3 b)
def State.setI (s : State) (b : Bool) : State := s.setFlags (putBit s.P 2 b)
def State.setZ (s : State) (b : Bool) : State := s.setFlags (putBit s.P 1 b)
def State.setCarry (s : State) (b : Bool) : State := s.setFlags (putBit s.P 0 b)

/-- `PC <- PC +_16 len`, the end of every instruction that does not set `PC` itself (`00_scope.md` R14, R31). -/
def State.advance (s : State) (len : Word) : State := s.setPC (s.PC + len)

end Sys2Proof.Machine
end

