-- ==== Sys2Proof/Machine/Flags.lean ====
section
/-! DEFINITION. Operation widths, and every result and flag computation of the instruction set: exact integers first, then
narrowing to the width (`00_scope.md` R10, R16; `40_adc_sbc.md`; `41_compare_incdec.md`; `42_logic_bit.md`; `43_shifts.md`).
A datum of 8 bits is a word whose high byte is zero. -/

namespace Sys2Proof.Machine

/-! ### Widths (`00_scope.md` R16) -/

/-- `M` or `XW`: 8 or 16 bits. -/
inductive Width where
  | w8
  | w16
  deriving DecidableEq, Repr

/-- The width a width flag selects: 16 bits when it is 0, 8 when it is 1. -/
def widthOf (flag : Bool) : Width := if flag then .w8 else .w16

/-- `M = 16 - 8*m`. -/
def State.mWidth (s : State) : Width := widthOf s.m

/-- `XW = 16 - 8*x`. -/
def State.xWidth (s : State) : Width := widthOf s.x

/-- The number of bits. -/
def bits : Width → Nat
  | .w8 => 8
  | .w16 => 16

/-- The number of bytes, as a distance in the program or on the stack. -/
def widthBytes : Width → Word
  | .w8 => 1
  | .w16 => 2

/-- `trunc_N` of a natural number (R10). -/
def truncNat (w : Width) (k : Nat) : Word := BitVec.ofNat 16 (k % 2 ^ bits w)

/-- `trunc_N` of an integer (R10). -/
def truncInt (w : Width) (k : Int) : Word := BitVec.ofNat 16 (k % 2 ^ bits w).toNat

/-- `trunc_N` of a word: an 8-bit operation sees the low byte only. -/
def truncWord (w : Width) (v : Word) : Word :=
  match w with
  | .w8 => zext16 (lo8 v)
  | .w16 => v

/-- `hibit(v, N) = v[N-1]` (R16). -/
def hibit (w : Width) (v : Word) : Bool := v.getLsbD (bits w - 1)

/-- `signed_N(v)` (R11). -/
def signedVal (w : Width) (v : Word) : Int :=
  if hibit w v then (v.toNat : Int) - 2 ^ bits w else v.toNat

/-- Whether an exact result lies outside `-2^(N-1) .. 2^(N-1) - 1`. -/
def overflows (w : Width) (k : Int) : Bool :=
  decide (k < -(2 ^ (bits w - 1)) ∨ 2 ^ (bits w - 1) ≤ k)

/-- The carry as a number. -/
def carryNat (c : Bool) : Nat := if c then 1 else 0

/-! ### The accumulator at the current width (R16, `10_state.md` R22) -/

/-- `Acc`: `C` when `m = 0`, `A` when `m = 1`. -/
def State.acc (s : State) : Word := truncWord s.mWidth s.C

/-- `Acc <- v`: with `m = 1` `B` is unchanged. -/
def State.setAcc (s : State) (v : Word) : State :=
  s.setC (if s.m then word s.B (lo8 v) else v)

/-- `SetNZ(v, N)` (R16). -/
def State.setNZ (s : State) (w : Width) (v : Word) : State :=
  (s.setN (hibit w v)).setZ (decide (truncWord w v = 0))

/-! ### Addition and subtraction (`40_adc_sbc.md`) -/

/-- A result with the four arithmetic flags. -/
structure Arith where
  result : Word
  n : Bool
  v : Bool
  z : Bool
  c : Bool
  deriving DecidableEq, Repr

/-- Binary ADC (R171). -/
def adcBinary (w : Width) (a data : Word) (c : Bool) : Arith :=
  let sum := a.toNat + data.toNat + carryNat c
  let result := truncNat w sum
  { result := result
    n := hibit w result
    v := overflows w (signedVal w a + signedVal w data + carryNat c)
    z := decide (result = 0)
    c := decide (2 ^ bits w ≤ sum) }

/-- Binary SBC (R172, with the carry of R173). -/
def sbcBinary (w : Width) (a data : Word) (c : Bool) : Arith :=
  let diff : Int := a.toNat - data.toNat - 1 + carryNat c
  let result := truncInt w diff
  { result := result
    n := hibit w result
    v := overflows w (signedVal w a - signedVal w data - 1 + carryNat c)
    z := decide (result = 0)
    c := decide (0 ≤ diff) }

/-- Digit `k` of a BCD value. -/
def digit (v : Word) (k : Nat) : Nat := v.toNat / 16 ^ k % 16

/-- Every digit is 0 to 9 (R174, R177). -/
def bcdValid (v : Word) : Bool :=
  decide (digit v 0 ≤ 9) && decide (digit v 1 ≤ 9) && decide (digit v 2 ≤ 9) && decide (digit v 3 ≤ 9)

/-- `bcd_val` (R174). -/
def bcdVal (v : Word) : Nat :=
  digit v 0 + 10 * digit v 1 + 100 * digit v 2 + 1000 * digit v 3

/-- `bcd_enc` (R174). -/
def bcdEnc (k : Nat) : Word :=
  BitVec.ofNat 16 (k % 10 + 16 * (k / 10 % 10) + 256 * (k / 100 % 10) + 4096 * (k / 1000 % 10))

/-- `10^K` with `K = M / 4` digits (R174). -/
def decimalRange : Width → Nat
  | .w8 => 100
  | .w16 => 10000

/-- Decimal ADC of valid BCD operands (R174); `v` is the free value of R176. -/
def adcDecimal (w : Width) (a data : Word) (c v : Bool) : Arith :=
  let sum := bcdVal a + bcdVal data + carryNat c
  let result := bcdEnc (sum % decimalRange w)
  { result := result
    n := hibit w result
    v := v
    z := decide (result = 0)
    c := decide (decimalRange w ≤ sum) }

/-- Decimal SBC of valid BCD operands (R175); `v` is the free value of R176. -/
def sbcDecimal (w : Width) (a data : Word) (c v : Bool) : Arith :=
  let diff : Int := bcdVal a - bcdVal data - 1 + carryNat c
  let result := bcdEnc (diff % (decimalRange w : Int)).toNat
  { result := result
    n := hibit w result
    v := v
    z := decide (result = 0)
    c := decide (0 ≤ diff) }

/-- What a decimal ADC or SBC gives when an operand is not valid BCD: result and all four flags are free values
drawn at `k` (R177, log 8). -/
def decimalFree (w : Width) (k : Nat) : Arith :=
  { result := truncWord w (Config.freeWord k)
    n := Config.freeBit k
    v := Config.freeBit (k + 1)
    z := Config.freeBit (k + 2)
    c := Config.freeBit (k + 3) }

/-- Store a result in `Acc` and its flags in `P`. -/
def State.putArith (s : State) (r : Arith) : State :=
  ((((s.setAcc r.result).setN r.n).setV r.v).setZ r.z).setCarry r.c

/-- ADC of `data` (R171, R174, R176, R177). -/
def State.adc (s : State) (data : Word) : State :=
  if s.d then
    if bcdValid s.acc && bcdValid data then
      (s.putArith (adcDecimal s.mWidth s.acc data s.c (Config.freeBit s.freeCount))).setFreeCount (s.freeCount + 1)
    else
      (s.putArith (decimalFree s.mWidth s.freeCount)).setFreeCount (s.freeCount + 4)
  else
    s.putArith (adcBinary s.mWidth s.acc data s.c)

/-- SBC of `data` (R172, R175, R176, R177). -/
def State.sbc (s : State) (data : Word) : State :=
  if s.d then
    if bcdValid s.acc && bcdValid data then
      (s.putArith (sbcDecimal s.mWidth s.acc data s.c (Config.freeBit s.freeCount))).setFreeCount (s.freeCount + 1)
    else
      (s.putArith (decimalFree s.mWidth s.freeCount)).setFreeCount (s.freeCount + 4)
  else
    s.putArith (sbcBinary s.mWidth s.acc data s.c)

/-! ### Compares, decrement, increment (`41_compare_incdec.md`) -/

/-- The flags of `reg - data` (R190 to R193): binary whatever `d` is, `v` untouched. -/
def State.compare (s : State) (w : Width) (reg data : Word) : State :=
  (s.setNZ w (truncInt w (reg.toNat - data.toNat))).setCarry (decide (data.toNat ≤ reg.toNat))

/-- `v + 1` at width `w` (R197 to R200). -/
def incValue (w : Width) (v : Word) : Word := truncWord w (v + 1)

/-- `v - 1` at width `w` (R194 to R196, R200). -/
def decValue (w : Width) (v : Word) : Word := truncWord w (v - 1)

/-! ### Logic and bit tests (`42_logic_bit.md`) -/

/-- Store a result in `Acc` and set `n` and `z` from it. -/
def State.putAccNZ (s : State) (v : Word) : State := (s.setAcc v).setNZ s.mWidth v

/-- The `z` flag of BIT, TRB and TSB: whether `Acc & data` is zero (R214, R217). -/
def State.testBits (s : State) (data : Word) : State := s.setZ (decide (s.acc &&& data = 0))

/-- BIT in every mode but immediate: `z` of the And, `n` and `v` the two top bits of the data (R214). -/
def State.bitData (s : State) (data : Word) : State :=
  ((s.setN (data.getLsbD (bits s.mWidth - 1))).setV (data.getLsbD (bits s.mWidth - 2))).testBits data

/-! ### Shifts and rotates (`43_shifts.md`): the result and the bit shifted out -/

/-- ASL (R231); the high bit is bit `M - 1` (R235). -/
def aslValue (w : Width) (v : Word) : Word × Bool := (truncWord w (v <<< 1), hibit w v)

/-- LSR (R232). -/
def lsrValue (_w : Width) (v : Word) : Word × Bool := (v >>> 1, v.getLsbD 0)

/-- ROL: the old carry enters bit 0 (R233). -/
def rolValue (w : Width) (c : Bool) (v : Word) : Word × Bool :=
  (truncWord w (v <<< 1) ||| (if c then 1#16 else 0#16), hibit w v)

/-- ROR: the old carry enters bit `M - 1` (R234). -/
def rorValue (w : Width) (c : Bool) (v : Word) : Word × Bool :=
  (v >>> 1 ||| (if c then 1#16 <<< (bits w - 1) else 0#16), v.getLsbD 0)

/-- The flags of a shift: `n` and `z` of the result, `c` the bit shifted out (R230). -/
def State.shiftFlags (s : State) (w : Width) (r : Word × Bool) : State :=
  (s.setNZ w r.1).setCarry r.2

end Sys2Proof.Machine
end

