-- ==== Sys2Proof/Machine/Ops.lean ====
section
/-! DEFINITION. The operations over memory, the stack, interrupts and RESET: `20_memory.md` R60 to R80,
`60_exceptions.md` R425 to R433, `46_software_interrupts.md` R285, `70_reset_and_hazards.md` R461. -/

namespace Sys2Proof.Machine

/-! ### Memory as a canonical list of cells -/

/-- What a byte that nothing has written reads as: `$00` (DESIGN CHOICE, unsafe, log 4; the platform's by decision D3). -/
def Memory.unlisted : Byte := 0x00#8

/-- The byte at an address. -/
def Memory.read : Memory → Nat → Byte
  | [], _ => Memory.unlisted
  | (b, v) :: rest, a => if a = b then v else if a < b then Memory.unlisted else Memory.read rest a

/-- Memory with the byte at an address replaced; writing what an unlisted byte reads as removes the cell. -/
def Memory.write : Memory → Nat → Byte → Memory
  | [], a, v => if v = Memory.unlisted then [] else [(a, v)]
  | (b, w) :: rest, a, v =>
    if a < b then (if v = Memory.unlisted then (b, w) :: rest else (a, v) :: (b, w) :: rest)
    else if a = b then (if v = Memory.unlisted then rest else (a, v) :: rest)
    else (b, w) :: Memory.write rest a v

/-- The form from address `lo` on: strictly rising addresses below `2^24`, no cell equal to an unlisted byte. -/
def Memory.wfFrom (lo : Nat) : Memory → Bool
  | [] => true
  | (a, v) :: rest =>
    decide (lo ≤ a) && decide (a < 2 ^ 24) && decide (v ≠ Memory.unlisted) && Memory.wfFrom (a + 1) rest

/-- The canonical form of memory (R60): equal memories are equal lists. -/
def Memory.wf (mem : Memory) : Bool := Memory.wfFrom 0 mem

/-! ### What the platform has at an address (`Platform.mem`, decision D3) -/

/-- The kind of an address under a list of regions: that of the first region that holds it, RAM where none does. -/
def kindIn : List Region → Addr → MemKind
  | [], _ => .ram
  | r :: rest, a => if r.first ≤ a ∧ a ≤ r.last then r.kind else kindIn rest a

/-- The kind of an address. -/
def State.kindAt (s : State) (a : Addr) : MemKind := kindIn s.regions a

/-- What a read answers: the contents of RAM and ROM, and the device's function elsewhere. -/
def answerOf (kind : MemKind) (contents device : Byte) : Byte :=
  match kind with
  | .ram => contents
  | .rom => contents
  | .device => device

/-- The contents after a write: only RAM takes it. -/
def contentsAfter (kind : MemKind) (mem : Memory) (a : Addr) (v : Byte) : Memory :=
  match kind with
  | .ram => Memory.write mem a.toNat v
  | .rom => mem
  | .device => mem

/-- The address of an access. -/
def Access.addr : Access → Addr
  | .read a => a
  | .write a _ => a

/-- The accesses of devices after one more access: only a device's is among them. -/
def logAfter (kind : MemKind) (time : Nat) (log : List (Nat × Access)) (x : Access) : List (Nat × Access) :=
  match kind with
  | .ram => log
  | .rom => log
  | .device => (time, x) :: log

/-- The state after a device, if the address is one's, has seen an access. -/
def State.note (s : State) (x : Access) : State :=
  s.setDeviceLog (logAfter (s.kindAt x.addr) s.deviceTime s.deviceLog x)

/-- The byte that `MemRead(a, 1)` answers (`00_scope.md` R13): every address exists (R62), and what is there is the platform's
(R79, R83, log 5). -/
def State.read (s : State) (a : Addr) : Byte :=
  answerOf (s.kindAt a) (Memory.read s.mem a.toNat) (Config.deviceByte s.deviceLog s.deviceTime a)

/-- What reading gives, and the state after it: a device may answer otherwise once it has been read (R80, R87, log 24). -/
structure Reading (α : Type) where
  value : α
  after : State

/-- `MemRead(a, 1)` carried out: the byte, and the read made known to the device it is of (R87). -/
def State.readByte (s : State) (a : Addr) : Reading Byte := { value := s.read a, after := s.note (.read a) }

/-- `MemWrite(a, 1, v)` (`00_scope.md` R13): RAM takes the byte, ROM ignores it, a device is given it (R79, R83, log 5). -/
def State.write (s : State) (a : Addr) (v : Byte) : State :=
  (s.setMem (contentsAfter (s.kindAt a) s.mem a v)).note (.write a v)

/-! ### Data of one or two bytes (`31_addressing_modes.md` R120) -/

/-- A data address pair: the addresses of the low and of the high byte, not always adjacent (R120). -/
structure DataAddr where
  lo : Addr
  hi : Addr
  deriving DecidableEq, Repr

/-- `Read16(a0, a1)`: little endian, the low byte read first (`00_scope.md` R13, `20_memory.md` R61, R80). -/
def State.read16 (s : State) (ea : DataAddr) : Reading Word :=
  let low := s.readByte ea.lo
  let high := low.after.readByte ea.hi
  { value := word high.value low.value, after := high.after }

/-- 24 bits read low, middle, high (R61, R80). -/
def State.read24 (s : State) (ea : DataAddr) (top : Addr) : Reading Addr :=
  let low := s.read16 ea
  let high := low.after.readByte top
  { value := addr high.value low.value, after := high.after }

/-- `Write16(a0, a1, v)`: the low byte, then the high byte (R13, R80). -/
def State.write16 (s : State) (ea : DataAddr) (v : Word) : State :=
  (s.write ea.lo (lo8 v)).write ea.hi (hi8 v)

/-- `ReadData(N)` (R120): an 8-bit datum is zero-extended into the word. -/
def State.readData (s : State) (w : Width) (ea : DataAddr) : Reading Word :=
  match w with
  | .w8 => { value := zext16 (s.readByte ea.lo).value, after := (s.readByte ea.lo).after }
  | .w16 => s.read16 ea

/-- `WriteData(N, v)` (R120). -/
def State.writeData (s : State) (w : Width) (ea : DataAddr) (v : Word) : State :=
  match w with
  | .w8 => s.write ea.lo (lo8 v)
  | .w16 => s.write16 ea v

/-! ### The stack (`20_memory.md` R72 to R78) -/

/-- Whether an instruction that uses the stack is available on the 65C02 (R72, log 9). -/
inductive Age where
  /-- Wraps in page 1 in emulation mode. -/
  | old
  /-- Never wraps at a page boundary. -/
  | new
  deriving DecidableEq, Repr

/-- `wrap = (e == 1 and old)` (R73). -/
def State.stackWraps (s : State) (age : Age) : Bool := s.e && decide (age = .old)

/-- `StackAddr(k)` (R73), `k` positions above `S` modulo `2^16` (a push uses 0, -1, -2). -/
def State.stackAddr (s : State) (age : Age) (k : Word) : Addr :=
  if s.stackWraps age then addr 0x00#8 (word 0x01#8 (s.SL + lo8 k)) else addr 0x00#8 (s.S + k)

/-- `S` after `k` bytes pulled, or with `k` negative pushed (R77): in emulation mode `SL` only. -/
def State.moveS (s : State) (k : Word) : State := s.setS (s.S + k)

/-- `Push8(v)` (R74, R77). -/
def State.push8 (s : State) (age : Age) (v : Byte) : State :=
  (s.write (s.stackAddr age 0) v).moveS (-1)

/-- `Push16(v)`: high byte first, at the higher address; both addresses from the `S` before (R75, R77). -/
def State.push16 (s : State) (age : Age) (v : Word) : State :=
  ((s.write (s.stackAddr age 0) (hi8 v)).write (s.stackAddr age (-1)) (lo8 v)).moveS (-2)

/-- `Push24(b : v)` (R75, R77). -/
def State.push24 (s : State) (age : Age) (b : Byte) (v : Word) : State :=
  (((s.write (s.stackAddr age 0) b).write (s.stackAddr age (-1)) (hi8 v)).write (s.stackAddr age (-2)) (lo8 v)).moveS (-3)

/-- `Push8` or `Push16` of a register of width `w` (`51_stack.md` R359). -/
def State.pushWidth (s : State) (age : Age) (w : Width) (v : Word) : State :=
  match w with
  | .w8 => s.push8 age (lo8 v)
  | .w16 => s.push16 age v

/-- The addresses `k` and `k + 1` positions above `S` (R73). -/
def State.stackPair (s : State) (age : Age) (k : Word) : DataAddr :=
  { lo := s.stackAddr age k, hi := s.stackAddr age (k + 1) }

/-- `Pull8()` (R76, R77). -/
def State.pull8 (s : State) (age : Age) : Reading Byte :=
  let b := s.readByte (s.stackAddr age 1)
  { value := b.value, after := b.after.moveS 1 }

/-- `Pull16()`: low byte at `StackAddr(1)`, then high byte at `StackAddr(2)` (R76, R77, R80). -/
def State.pull16 (s : State) (age : Age) : Reading Word :=
  let v := s.read16 (s.stackPair age 1)
  { value := v.value, after := v.after.moveS 2 }

/-- `Pull24()`: low byte, high byte, bank byte (R76, R77, R80). -/
def State.pull24 (s : State) (age : Age) : Reading Addr :=
  let v := s.read24 (s.stackPair age 1) (s.stackAddr age 3)
  { value := v.value, after := v.after.moveS 3 }

/-- `Pull8()` or `Pull16()` of a register of width `w` (R76, `51_stack.md` R359). -/
def State.pullWidth (s : State) (age : Age) (w : Width) : Reading Word :=
  match w with
  | .w8 => { value := zext16 (s.pull8 age).value, after := (s.pull8 age).after }
  | .w16 => s.pull16 age

/-! ### Interrupts (`60_exceptions.md`) -/

/-- The interrupts that the sequence of R430 serves; RESET has its own (`70_reset_and_hazards.md` R461). -/
inductive Interrupt where
  | brk
  | cop
  | abort
  | irq
  | nmi
  deriving DecidableEq, Repr

/-- The vector table (R425). -/
def vectorOf (k : Interrupt) (e : Bool) : Addr :=
  match k, e with
  | .cop, false => 0x00FFE4#24
  | .brk, false => 0x00FFE6#24
  | .abort, false => 0x00FFE8#24
  | .nmi, false => 0x00FFEA#24
  | .irq, false => 0x00FFEE#24
  | .cop, true => 0x00FFF4#24
  | .brk, true => 0x00FFFE#24
  | .abort, true => 0x00FFF8#24
  | .nmi, true => 0x00FFFA#24
  | .irq, true => 0x00FFFE#24

/-- The RESET vector (R425). -/
def resetVector : Addr := 0x00FFFC#24

/-- Look a vector byte's address up in the platform's redirections. -/
def mapVector : List (Addr × Addr) → Addr → Addr
  | [], a => a
  | (fetched, instead) :: rest, a => if a = fetched then instead else mapVector rest a

/-- The 16-bit vector at `vec`: two byte reads, low then high, each through `Platform.vector_map` (R426, R430). -/
def State.readVector (s : State) (vec : Addr) : Reading Word :=
  s.read16 { lo := mapVector s.vectorMap vec, hi := mapVector s.vectorMap (vec + 1) }

/-- `bbit`, bit 4 of the pushed `P` in emulation mode (R433, log 10). -/
def breakBit : Interrupt → Bool
  | .brk => true
  | .cop => true
  | .abort => false
  | .irq => false
  | .nmi => false

/-- The byte pushed for `P`: as it is in native mode, with bit 4 replaced in emulation mode (R430, R433). -/
def State.pushedP (s : State) (k : Interrupt) : Byte := if s.e then putBit s.P 4 (breakBit k) else s.P

/-- The frame: `K` in native mode only, the return address, then `P` (R430, R431). Every interrupt is old (R72). -/
def State.pushFrame (s : State) (k : Interrupt) (ret : Word) : State :=
  if s.e then (s.push16 .old ret).push8 .old (s.pushedP k)
  else (s.push24 .old s.K ret).push8 .old (s.pushedP k)

/-- ABORT and NMI leave the pending set when taken; IRQ is withdrawn by the platform (R430, R440, log 11). -/
def Requests.take (r : Requests) : Interrupt → Requests
  | .abort => { r with abort := false }
  | .nmi => { r with nmi := false }
  | .brk => r
  | .cop => r
  | .irq => r

/-- `i <- 1; d <- 0` (R430). -/
def State.maskInterrupts (s : State) : State := (s.setI true).setDec false

/-- TAKING AN INTERRUPT: the sequence of R430 with return address `ret` (R435). The vector is that of the mode the
interrupt is taken in, and is read after the frame is pushed. -/
def State.enterInterrupt (s : State) (k : Interrupt) (ret : Word) : State :=
  let t := ((s.pushFrame k ret).maskInterrupts).setK 0x00#8
  let handler := t.readVector (vectorOf k s.e)
  ((handler.after.setPC handler.value).setRun .running).setPending (t.pending.take k)

/-- RETURNING FROM AN INTERRUPT: RTI (`46_software_interrupts.md` R285), which pulls `P`, then the address, then in native mode
`K` (`20_memory.md` R80). The address is not incremented; `P` is written under the forcing rule. -/
def State.leaveInterrupt (s : State) : State :=
  let p := s.readByte (s.stackAddr .old 1)
  let ret := p.after.read16 (s.stackPair .old 2)
  let bank := ret.after.readByte (s.stackAddr .old 4)
  if s.e then ((ret.after.moveS 3).setP p.value).setPC ret.value
  else (((bank.after.moveS 4).setP p.value).setPC ret.value).setK bank.value

/-- The RESET sequence (`70_reset_and_hazards.md` R461). `SL`, `C`, `XL`, `YL`, `n`, `v`, `z`, `c` and the other pending
requests are free values (R43, log 3); no memory is written, and the vector's two bytes are read. -/
def State.resetSequence (s : State) : State :=
  let k := s.freeCount
  let vector := s.readVector resetVector
  let p := putBit (putBit (putBit (putBit 0x34#8 7 (Config.freeBit k)) 6 (Config.freeBit (k + 1)))
    1 (Config.freeBit (k + 2))) 0 (Config.freeBit (k + 3))
  { vector.after with
    e := true
    P := p
    S := word 0x01#8 (Config.freeByte k)
    X := zext16 (Config.freeByte (k + 1))
    Y := zext16 (Config.freeByte (k + 2))
    C := Config.freeWord k
    D := 0x0000#16
    DBR := 0x00#8
    K := 0x00#8
    PC := vector.value
    run := .running
    pending :=
      { abort := Config.freeBit (k + 4)
        irq := Config.freeBit (k + 5)
        nmi := Config.freeBit (k + 6)
        reset := false }
    freeCount := k + 7 }

end Sys2Proof.Machine
end

