-- ==== Sys2Proof/Machine/Operands.lean ====
section
/-! DEFINITION. The addressing modes (`31_addressing_modes.md` R120 to R151): each turns operand bytes and registers into a
data address pair or a jump destination. Register values are those before the instruction (R121). A mode that reads a pointer gives
the state after its reads as well (`20_memory.md` R80). -/

namespace Sys2Proof.Machine

/-- The pair of a datum whose high byte is at the next 24-bit address (`20_memory.md` R64). -/
def flatAddr (a : Addr) : DataAddr := { lo := a, hi := a + 1 }

/-! ### Absolute and long -/

/-- `abs` (R122). -/
def eaAbs (hhll : Word) (s : State) : DataAddr := flatAddr (addr s.DBR hhll)

/-- `abs,X` (R123). -/
def eaAbsX (hhll : Word) (s : State) : DataAddr := flatAddr (addr s.DBR hhll + zext24 s.X)

/-- `abs,Y` (R124). -/
def eaAbsY (hhll : Word) (s : State) : DataAddr := flatAddr (addr s.DBR hhll + zext24 s.Y)

/-- `long` (R142). -/
def eaLong (hhmmll : Addr) (_s : State) : DataAddr := flatAddr hhmmll

/-- `long,X` (R143). -/
def eaLongX (hhmmll : Addr) (s : State) : DataAddr := flatAddr (hhmmll + zext24 s.X)

/-! ### Direct -/

/-- `dpwrap` (R131): emulation mode, `DL = $00`, and an old instruction. -/
def State.directWraps (s : State) (age : Age) : Bool :=
  s.e && decide (s.DL = 0x00#8) && decide (age = .old)

/-- Byte `k` of what the direct page holds at `$LL` plus index `idx`: bank 0, in 16-bit arithmetic, or in 8-bit arithmetic
inside the page under `dpwrap` (R131 to R139). -/
def State.directAddr (s : State) (age : Age) (ll : Byte) (idx k : Word) : Addr :=
  if s.directWraps age then addr 0x00#8 (word s.DH (ll + lo8 idx + lo8 k))
  else addr 0x00#8 (s.D + zext16 ll + idx + k)

/-- The pair of a direct-page datum. Under `dpwrap` data is always 8 bits and only `lo` is used (R131, log 18). -/
def State.directPair (s : State) (age : Age) (ll : Byte) (idx : Word) : DataAddr :=
  { lo := s.directAddr age ll idx 0, hi := s.directAddr age ll idx 1 }

/-- `dir` (R132). -/
def eaDir (ll : Byte) (s : State) : DataAddr := s.directPair .old ll 0

/-- `dir` for PEI, the one new instruction of the mode (R130, R132). -/
def eaDirNew (ll : Byte) (s : State) : DataAddr := s.directPair .new ll 0

/-- `dir,X` (R133). -/
def eaDirX (ll : Byte) (s : State) : DataAddr := s.directPair .old ll s.X

/-- `dir,Y` (R134). -/
def eaDirY (ll : Byte) (s : State) : DataAddr := s.directPair .old ll s.Y

/-- The data at a 16-bit pointer in bank `DBR` plus `idx`, in 24-bit arithmetic; the pointer is read low byte first (R135, R138). -/
def State.throughPointer (s : State) (pointer : DataAddr) (idx : Word) : Reading DataAddr :=
  let p := s.read16 pointer
  { value := flatAddr (addr s.DBR p.value + zext24 idx), after := p.after }

/-- The data at the 24-bit pointer of `[dir]` plus `idx`; the pointer never wraps in the page and is read low byte first
(R136, R139). -/
def State.throughLongPointer (s : State) (ll : Byte) (idx : Word) : Reading DataAddr :=
  let p := s.read24 (s.directPair .new ll 0) (s.directAddr .new ll 0 2)
  { value := flatAddr (p.value + zext24 idx), after := p.after }

/-- `(dir)` (R135). -/
def eaDirInd (ll : Byte) (s : State) : Reading DataAddr := s.throughPointer (s.directPair .old ll 0) 0

/-- `[dir]` (R136). -/
def eaDirLong (ll : Byte) (s : State) : Reading DataAddr := s.throughLongPointer ll 0

/-- `(dir,X)` (R137). -/
def eaDirXInd (ll : Byte) (s : State) : Reading DataAddr := s.throughPointer (s.directPair .old ll s.X) 0

/-- `(dir),Y` (R138). -/
def eaDirIndY (ll : Byte) (s : State) : Reading DataAddr := s.throughPointer (s.directPair .old ll 0) s.Y

/-- `[dir],Y` (R139). -/
def eaDirLongY (ll : Byte) (s : State) : Reading DataAddr := s.throughLongPointer ll s.Y

/-! ### Stack relative -/

/-- The pair at `S + $LL` in bank 0: 16-bit arithmetic in either mode (R150). -/
def State.stackRelative (s : State) (ll : Byte) : DataAddr :=
  { lo := addr 0x00#8 (s.S + zext16 ll), hi := addr 0x00#8 (s.S + zext16 ll + 1) }

/-- `stk,S` (R150). -/
def eaStkS (ll : Byte) (s : State) : DataAddr := s.stackRelative ll

/-- `(stk,S),Y` (R151). -/
def eaStkSIndY (ll : Byte) (s : State) : Reading DataAddr := s.throughPointer (s.stackRelative ll) s.Y

/-! ### Jump destinations -/

/-- The two bytes of a pointer in bank 0 (R125, R126). -/
def pointerPair (hhll : Word) : DataAddr := { lo := addr 0x00#8 hhll, hi := addr 0x00#8 (hhll + 1) }

/-- The 16-bit pointer of `(abs)`, in bank 0 (R125). -/
def State.absPointer (s : State) (hhll : Word) : Reading Word := s.read16 (pointerPair hhll)

/-- The 24-bit pointer of `[abs]`, in bank 0 (R126). -/
def State.absLongPointer (s : State) (hhll : Word) : Reading Addr :=
  s.read24 (pointerPair hhll) (addr 0x00#8 (hhll + 2))

/-- The 16-bit pointer of `(abs,X)`, in bank `K` (R127). -/
def State.absXPointer (s : State) (hhll : Word) : Reading Word :=
  s.read16 { lo := addr s.K (hhll + s.X), hi := addr s.K (hhll + s.X + 1) }

/-- The rel8 destination in bank `K` (R147). -/
def State.rel8Target (s : State) (ll : Byte) : Word := s.PC + 2 + sext16 ll

/-- The rel16 destination in bank `K`, and the value PER pushes (R148). -/
def State.rel16Target (s : State) (hhll : Word) : Word := s.PC + 3 + hhll

/-! ### Immediate and block move -/

/-- The data of an immediate of width `w` (R140, log 17). -/
def immData (w : Width) (imm : Word) : Word := truncWord w imm

/-- The length of an instruction with immediate data of width `w` (`30_encoding.md` R93). -/
def immLen (w : Width) : Word := 1 + widthBytes w

/-- The move source address `$SS : X` (R149). -/
def State.moveSource (s : State) (ss : Byte) : Addr := addr ss s.X

/-- The move destination address `$TT : Y` (R149). -/
def State.moveDest (s : State) (tt : Byte) : Addr := addr tt s.Y

/-! ### The shapes of an instruction with data -/

/-- The data addresses of a mode that reads no pointer. -/
def found (ea : State → DataAddr) (s : State) : Reading DataAddr := { value := ea s, after := s }

/-- Read data of `M` bits at `ea` and apply `f` to it. -/
def loadM (f : State → Word → State) (ea : State → Reading DataAddr) (len : Word) (s : State) : Result :=
  let p := ea s
  let data := p.after.readData s.mWidth p.value
  .next ((f data.after data.value).advance len)

/-- Apply `f` to immediate data of `M` bits (`30_encoding.md` R93 case A). -/
def immM (f : State → Word → State) (imm : Word) (s : State) : Result :=
  .next ((f s (immData s.mWidth imm)).advance (immLen s.mWidth))

/-- Read data of `XW` bits at `ea` and apply `f` to it. -/
def loadX (f : State → Word → State) (ea : State → DataAddr) (len : Word) (s : State) : Result :=
  let data := s.readData s.xWidth (ea s)
  .next ((f data.after data.value).advance len)

/-- Apply `f` to immediate data of `XW` bits (`30_encoding.md` R93 case B). -/
def immX (f : State → Word → State) (imm : Word) (s : State) : Result :=
  .next ((f s (immData s.xWidth imm)).advance (immLen s.xWidth))

/-- Store `v` at width `w` at `ea`. -/
def store (w : Width) (v : Word) (ea : State → Reading DataAddr) (len : Word) (s : State) : Result :=
  let p := ea s
  .next ((p.after.writeData w p.value v).advance len)

/-- An instruction of `len` bytes that does `f` and goes on to the next one. -/
def plain (f : State → State) (len : Word) (s : State) : Result := .next ((f s).advance len)

end Sys2Proof.Machine
end

