-- ==== Sys2Proof/Machine/AdcSbc.lean ====
section
/-! DEFINITION. ADC and SBC (`40_adc_sbc.md` R170 to R178): the operation at width `M`, binary or decimal, on the data of each mode. -/

namespace Sys2Proof.Machine

/-- `ADC (dir,X)` ($61): R171, mode R137. -/
def execAdcDirXInd (ll : Byte) (s : State) : Result :=
  loadM State.adc (eaDirXInd ll) 2 s

/-- `ADC stk,S` ($63): R171, mode R150. -/
def execAdcStkS (ll : Byte) (s : State) : Result :=
  loadM State.adc (found (eaStkS ll)) 2 s

/-- `ADC dir` ($65): R171, mode R132. -/
def execAdcDir (ll : Byte) (s : State) : Result :=
  loadM State.adc (found (eaDir ll)) 2 s

/-- `ADC [dir]` ($67): R171, mode R136. -/
def execAdcDirLong (ll : Byte) (s : State) : Result :=
  loadM State.adc (eaDirLong ll) 2 s

/-- `ADC imm` ($69): R171, mode R140. -/
def execAdcImm (imm : Word) (s : State) : Result :=
  immM State.adc imm s

/-- `ADC abs` ($6D): R171, mode R122. -/
def execAdcAbs (hhll : Word) (s : State) : Result :=
  loadM State.adc (found (eaAbs hhll)) 3 s

/-- `ADC long` ($6F): R171, mode R142. -/
def execAdcLong (hhmmll : Addr) (s : State) : Result :=
  loadM State.adc (found (eaLong hhmmll)) 4 s

/-- `ADC (dir),Y` ($71): R171, mode R138. -/
def execAdcDirIndY (ll : Byte) (s : State) : Result :=
  loadM State.adc (eaDirIndY ll) 2 s

/-- `ADC (dir)` ($72): R171, mode R135. -/
def execAdcDirInd (ll : Byte) (s : State) : Result :=
  loadM State.adc (eaDirInd ll) 2 s

/-- `ADC (stk,S),Y` ($73): R171, mode R151. -/
def execAdcStkSIndY (ll : Byte) (s : State) : Result :=
  loadM State.adc (eaStkSIndY ll) 2 s

/-- `ADC dir,X` ($75): R171, mode R133. -/
def execAdcDirX (ll : Byte) (s : State) : Result :=
  loadM State.adc (found (eaDirX ll)) 2 s

/-- `ADC [dir],Y` ($77): R171, mode R139. -/
def execAdcDirLongY (ll : Byte) (s : State) : Result :=
  loadM State.adc (eaDirLongY ll) 2 s

/-- `ADC abs,Y` ($79): R171, mode R124. -/
def execAdcAbsY (hhll : Word) (s : State) : Result :=
  loadM State.adc (found (eaAbsY hhll)) 3 s

/-- `ADC abs,X` ($7D): R171, mode R123. -/
def execAdcAbsX (hhll : Word) (s : State) : Result :=
  loadM State.adc (found (eaAbsX hhll)) 3 s

/-- `ADC long,X` ($7F): R171, mode R143. -/
def execAdcLongX (hhmmll : Addr) (s : State) : Result :=
  loadM State.adc (found (eaLongX hhmmll)) 4 s

/-- `SBC (dir,X)` ($E1): R172, mode R137. -/
def execSbcDirXInd (ll : Byte) (s : State) : Result :=
  loadM State.sbc (eaDirXInd ll) 2 s

/-- `SBC stk,S` ($E3): R172, mode R150. -/
def execSbcStkS (ll : Byte) (s : State) : Result :=
  loadM State.sbc (found (eaStkS ll)) 2 s

/-- `SBC dir` ($E5): R172, mode R132. -/
def execSbcDir (ll : Byte) (s : State) : Result :=
  loadM State.sbc (found (eaDir ll)) 2 s

/-- `SBC [dir]` ($E7): R172, mode R136. -/
def execSbcDirLong (ll : Byte) (s : State) : Result :=
  loadM State.sbc (eaDirLong ll) 2 s

/-- `SBC imm` ($E9): R172, mode R140. -/
def execSbcImm (imm : Word) (s : State) : Result :=
  immM State.sbc imm s

/-- `SBC abs` ($ED): R172, mode R122. -/
def execSbcAbs (hhll : Word) (s : State) : Result :=
  loadM State.sbc (found (eaAbs hhll)) 3 s

/-- `SBC long` ($EF): R172, mode R142. -/
def execSbcLong (hhmmll : Addr) (s : State) : Result :=
  loadM State.sbc (found (eaLong hhmmll)) 4 s

/-- `SBC (dir),Y` ($F1): R172, mode R138. -/
def execSbcDirIndY (ll : Byte) (s : State) : Result :=
  loadM State.sbc (eaDirIndY ll) 2 s

/-- `SBC (dir)` ($F2): R172, mode R135. -/
def execSbcDirInd (ll : Byte) (s : State) : Result :=
  loadM State.sbc (eaDirInd ll) 2 s

/-- `SBC (stk,S),Y` ($F3): R172, mode R151. -/
def execSbcStkSIndY (ll : Byte) (s : State) : Result :=
  loadM State.sbc (eaStkSIndY ll) 2 s

/-- `SBC dir,X` ($F5): R172, mode R133. -/
def execSbcDirX (ll : Byte) (s : State) : Result :=
  loadM State.sbc (found (eaDirX ll)) 2 s

/-- `SBC [dir],Y` ($F7): R172, mode R139. -/
def execSbcDirLongY (ll : Byte) (s : State) : Result :=
  loadM State.sbc (eaDirLongY ll) 2 s

/-- `SBC abs,Y` ($F9): R172, mode R124. -/
def execSbcAbsY (hhll : Word) (s : State) : Result :=
  loadM State.sbc (found (eaAbsY hhll)) 3 s

/-- `SBC abs,X` ($FD): R172, mode R123. -/
def execSbcAbsX (hhll : Word) (s : State) : Result :=
  loadM State.sbc (found (eaAbsX hhll)) 3 s

/-- `SBC long,X` ($FF): R172, mode R143. -/
def execSbcLongX (hhmmll : Addr) (s : State) : Result :=
  loadM State.sbc (found (eaLongX hhmmll)) 4 s

end Sys2Proof.Machine
end

