-- ==== Sys2Proof/Machine/BlockMove.lean ====
section
/-! DEFINITION. MVN MVP (`49_block_move.md` R330 to R336): one byte per step, no hidden progress state (`10_state.md` R42). -/

namespace Sys2Proof.Machine

/-- The state after one byte has been read and written, `PC` apart (R331, `20_memory.md` R80): `DBR`, all 16 bits of `C`, and `X` and `Y` by `delta`. -/
def State.moveByte (s : State) (delta : Word) (tt ss : Byte) : State :=
  let b := s.readByte (s.moveSource ss)
  ((((b.after.write (s.moveDest tt) b.value).setDBR tt).setC (s.C - 1)).setX (s.X + delta)).setY (s.Y + delta)

/-- One step of a block move moves one byte; `PC` goes on only when `C` has become `$FFFF` (R331, R333). -/
def blockMove (delta : Word) (tt ss : Byte) (s : State) : Result :=
  let t := s.moveByte delta tt ss
  .next (if t.C = 0xFFFF#16 then t.advance 3 else t)

/-- `MVN src,dest` ($54): R332, mode R149. -/
def execMvn (tt : Byte) (ss : Byte) (s : State) : Result :=
  blockMove 1 tt ss s

/-- `MVP src,dest` ($44): R334, mode R149. -/
def execMvp (tt : Byte) (ss : Byte) (s : State) : Result :=
  blockMove (-1) tt ss s

end Sys2Proof.Machine
end

