-- ==== Sys2Proof/Machine/Branches.lean ====
section
/-! DEFINITION. The branches (`44_branches.md` R240 to R251). The operand byte is part of the instruction whether or not the branch is taken. -/

namespace Sys2Proof.Machine

/-- A branch with an 8-bit displacement (R241): `K` never changes (R240). -/
def branch8 (taken : Bool) (ll : Byte) (s : State) : Result :=
  .next (s.setPC (if taken then s.rel8Target ll else s.PC + 2))

/-- `BCC rel8` ($90): R242, mode R147. -/
def execBcc (ll : Byte) (s : State) : Result :=
  branch8 (!s.c) ll s

/-- `BCS rel8` ($B0): R243, mode R147. -/
def execBcs (ll : Byte) (s : State) : Result :=
  branch8 s.c ll s

/-- `BEQ rel8` ($F0): R244, mode R147. -/
def execBeq (ll : Byte) (s : State) : Result :=
  branch8 s.z ll s

/-- `BMI rel8` ($30): R245, mode R147. -/
def execBmi (ll : Byte) (s : State) : Result :=
  branch8 s.n ll s

/-- `BNE rel8` ($D0): R246, mode R147. -/
def execBne (ll : Byte) (s : State) : Result :=
  branch8 (!s.z) ll s

/-- `BPL rel8` ($10): R247, mode R147. -/
def execBpl (ll : Byte) (s : State) : Result :=
  branch8 (!s.n) ll s

/-- `BRA rel8` ($80): R248, mode R147. -/
def execBra (ll : Byte) (s : State) : Result :=
  branch8 true ll s

/-- `BVC rel8` ($50): R249, mode R147. -/
def execBvc (ll : Byte) (s : State) : Result :=
  branch8 (!s.v) ll s

/-- `BVS rel8` ($70): R250, mode R147. -/
def execBvs (ll : Byte) (s : State) : Result :=
  branch8 s.v ll s

/-- `BRL rel16` ($82): R251, mode R148. -/
def execBrl (hhll : Word) (s : State) : Result :=
  .next (s.setPC (s.rel16Target hhll))

end Sys2Proof.Machine
end

