-- ==== Sys2Proof/Machine/CompareIncDec.lean ====
section
/-! DEFINITION. CMP CPX CPY, DEC DEX DEY INC INX INY (`41_compare_incdec.md` R190 to R200). -/

namespace Sys2Proof.Machine

/-- CMP of `data`: `Acc - data` at width `M` (R191). -/
def State.cmp (s : State) (data : Word) : State := s.compare s.mWidth s.acc data

/-- CPX of `data` at width `XW` (R192). -/
def State.cpx (s : State) (data : Word) : State := s.compare s.xWidth (truncWord s.xWidth s.X) data

/-- CPY of `data` at width `XW` (R193). -/
def State.cpy (s : State) (data : Word) : State := s.compare s.xWidth (truncWord s.xWidth s.Y) data

/-- DEC or INC of memory: read all of it, write it back, `n` and `z` from the result (R200, `20_memory.md` R80). -/
def stepMem (f : Width → Word → Word) (ea : State → DataAddr) (len : Word) (s : State) : Result :=
  let data := s.readData s.mWidth (ea s)
  let r := f s.mWidth data.value
  .next (((data.after.writeData s.mWidth (ea s) r).setNZ s.mWidth r).advance len)

/-- DEC or INC of the accumulator (R200). -/
def stepAcc (f : Width → Word → Word) (s : State) : Result :=
  plain (fun s => s.putAccNZ (f s.mWidth s.acc)) 1 s

/-- DEX or INX (R195, R198). -/
def stepX (f : Width → Word → Word) (s : State) : Result :=
  plain (fun s => (s.setX (f s.xWidth s.X)).setNZ s.xWidth (f s.xWidth s.X)) 1 s

/-- DEY or INY (R196, R199). -/
def stepY (f : Width → Word → Word) (s : State) : Result :=
  plain (fun s => (s.setY (f s.xWidth s.Y)).setNZ s.xWidth (f s.xWidth s.Y)) 1 s

/-- `CMP (dir,X)` ($C1): R191, mode R137. -/
def execCmpDirXInd (ll : Byte) (s : State) : Result :=
  loadM State.cmp (eaDirXInd ll) 2 s

/-- `CMP stk,S` ($C3): R191, mode R150. -/
def execCmpStkS (ll : Byte) (s : State) : Result :=
  loadM State.cmp (found (eaStkS ll)) 2 s

/-- `CMP dir` ($C5): R191, mode R132. -/
def execCmpDir (ll : Byte) (s : State) : Result :=
  loadM State.cmp (found (eaDir ll)) 2 s

/-- `CMP [dir]` ($C7): R191, mode R136. -/
def execCmpDirLong (ll : Byte) (s : State) : Result :=
  loadM State.cmp (eaDirLong ll) 2 s

/-- `CMP imm` ($C9): R191, mode R140. -/
def execCmpImm (imm : Word) (s : State) : Result :=
  immM State.cmp imm s

/-- `CMP abs` ($CD): R191, mode R122. -/
def execCmpAbs (hhll : Word) (s : State) : Result :=
  loadM State.cmp (found (eaAbs hhll)) 3 s

/-- `CMP long` ($CF): R191, mode R142. -/
def execCmpLong (hhmmll : Addr) (s : State) : Result :=
  loadM State.cmp (found (eaLong hhmmll)) 4 s

/-- `CMP (dir),Y` ($D1): R191, mode R138. -/
def execCmpDirIndY (ll : Byte) (s : State) : Result :=
  loadM State.cmp (eaDirIndY ll) 2 s

/-- `CMP (dir)` ($D2): R191, mode R135. -/
def execCmpDirInd (ll : Byte) (s : State) : Result :=
  loadM State.cmp (eaDirInd ll) 2 s

/-- `CMP (stk,S),Y` ($D3): R191, mode R151. -/
def execCmpStkSIndY (ll : Byte) (s : State) : Result :=
  loadM State.cmp (eaStkSIndY ll) 2 s

/-- `CMP dir,X` ($D5): R191, mode R133. -/
def execCmpDirX (ll : Byte) (s : State) : Result :=
  loadM State.cmp (found (eaDirX ll)) 2 s

/-- `CMP [dir],Y` ($D7): R191, mode R139. -/
def execCmpDirLongY (ll : Byte) (s : State) : Result :=
  loadM State.cmp (eaDirLongY ll) 2 s

/-- `CMP abs,Y` ($D9): R191, mode R124. -/
def execCmpAbsY (hhll : Word) (s : State) : Result :=
  loadM State.cmp (found (eaAbsY hhll)) 3 s

/-- `CMP abs,X` ($DD): R191, mode R123. -/
def execCmpAbsX (hhll : Word) (s : State) : Result :=
  loadM State.cmp (found (eaAbsX hhll)) 3 s

/-- `CMP long,X` ($DF): R191, mode R143. -/
def execCmpLongX (hhmmll : Addr) (s : State) : Result :=
  loadM State.cmp (found (eaLongX hhmmll)) 4 s

/-- `CPX imm` ($E0): R192, mode R140. -/
def execCpxImm (imm : Word) (s : State) : Result :=
  immX State.cpx imm s

/-- `CPX dir` ($E4): R192, mode R132. -/
def execCpxDir (ll : Byte) (s : State) : Result :=
  loadX State.cpx (eaDir ll) 2 s

/-- `CPX abs` ($EC): R192, mode R122. -/
def execCpxAbs (hhll : Word) (s : State) : Result :=
  loadX State.cpx (eaAbs hhll) 3 s

/-- `CPY imm` ($C0): R193, mode R140. -/
def execCpyImm (imm : Word) (s : State) : Result :=
  immX State.cpy imm s

/-- `CPY dir` ($C4): R193, mode R132. -/
def execCpyDir (ll : Byte) (s : State) : Result :=
  loadX State.cpy (eaDir ll) 2 s

/-- `CPY abs` ($CC): R193, mode R122. -/
def execCpyAbs (hhll : Word) (s : State) : Result :=
  loadX State.cpy (eaAbs hhll) 3 s

/-- `DEC acc` ($3A): R194, mode R128. -/
def execDecAcc (s : State) : Result :=
  stepAcc decValue s

/-- `DEC dir` ($C6): R194, mode R132. -/
def execDecDir (ll : Byte) (s : State) : Result :=
  stepMem decValue (eaDir ll) 2 s

/-- `DEC abs` ($CE): R194, mode R122. -/
def execDecAbs (hhll : Word) (s : State) : Result :=
  stepMem decValue (eaAbs hhll) 3 s

/-- `DEC dir,X` ($D6): R194, mode R133. -/
def execDecDirX (ll : Byte) (s : State) : Result :=
  stepMem decValue (eaDirX ll) 2 s

/-- `DEC abs,X` ($DE): R194, mode R123. -/
def execDecAbsX (hhll : Word) (s : State) : Result :=
  stepMem decValue (eaAbsX hhll) 3 s

/-- `DEX` ($CA): R195. -/
def execDex (s : State) : Result :=
  stepX decValue s

/-- `DEY` ($88): R196. -/
def execDey (s : State) : Result :=
  stepY decValue s

/-- `INC acc` ($1A): R197, mode R128. -/
def execIncAcc (s : State) : Result :=
  stepAcc incValue s

/-- `INC dir` ($E6): R197, mode R132. -/
def execIncDir (ll : Byte) (s : State) : Result :=
  stepMem incValue (eaDir ll) 2 s

/-- `INC abs` ($EE): R197, mode R122. -/
def execIncAbs (hhll : Word) (s : State) : Result :=
  stepMem incValue (eaAbs hhll) 3 s

/-- `INC dir,X` ($F6): R197, mode R133. -/
def execIncDirX (ll : Byte) (s : State) : Result :=
  stepMem incValue (eaDirX ll) 2 s

/-- `INC abs,X` ($FE): R197, mode R123. -/
def execIncAbsX (hhll : Word) (s : State) : Result :=
  stepMem incValue (eaAbsX hhll) 3 s

/-- `INX` ($E8): R198. -/
def execInx (s : State) : Result :=
  stepX incValue s

/-- `INY` ($C8): R199. -/
def execIny (s : State) : Result :=
  stepY incValue s

end Sys2Proof.Machine
end

