-- ==== Sys2Proof/Machine/FlagInstr.lean ====
section
/-! DEFINITION. CLC CLD CLI CLV SEC SED SEI, REP SEP (`47_flag_instr.md` R290 to R300). -/

namespace Sys2Proof.Machine

/-- `CLC` ($18): R291. -/
def execClc (s : State) : Result :=
  plain (fun s => s.setCarry false) 1 s

/-- `CLD` ($D8): R292. -/
def execCld (s : State) : Result :=
  plain (fun s => s.setDec false) 1 s

/-- `CLI` ($58): R293. -/
def execCli (s : State) : Result :=
  plain (fun s => s.setI false) 1 s

/-- `CLV` ($B8): R294. -/
def execClv (s : State) : Result :=
  plain (fun s => s.setV false) 1 s

/-- `SEC` ($38): R295. -/
def execSec (s : State) : Result :=
  plain (fun s => s.setCarry true) 1 s

/-- `SED` ($F8): R296. -/
def execSed (s : State) : Result :=
  plain (fun s => s.setDec true) 1 s

/-- `SEI` ($78): R297. -/
def execSei (s : State) : Result :=
  plain (fun s => s.setI true) 1 s

/-- `REP imm` ($C2): R298, mode R140. -/
def execRep (mask : Byte) (s : State) : Result :=
  plain (fun s => s.setP (s.P &&& ~~~mask)) 2 s

/-- `SEP imm` ($E2): R299, mode R140. -/
def execSep (mask : Byte) (s : State) : Result :=
  plain (fun s => s.setP (s.P ||| mask)) 2 s

end Sys2Proof.Machine
end

