-- ==== Sys2Proof/Machine/Jumps.lean ====
section
/-! DEFINITION. JMP JSL JSR RTL RTS (`45_jumps_calls.md` R260 to R271). A call pushes the address of its own last byte. -/

namespace Sys2Proof.Machine

/-- `K:PC <- a` (`00_scope.md` R14). -/
def State.jumpLong (s : State) (a : Addr) : State := (s.setK (bankOf a)).setPC (offsetOf a)

/-- `JMP abs` ($4C): R261, mode R122. -/
def execJmpAbs (hhll : Word) (s : State) : Result :=
  .next (s.setPC hhll)

/-- `JMP long` ($5C): R262, mode R142. -/
def execJmpLong (hhmmll : Addr) (s : State) : Result :=
  .next (s.jumpLong hhmmll)

/-- `JMP (abs)` ($6C): R263, mode R125. -/
def execJmpAbsInd (hhll : Word) (s : State) : Result :=
  let p := s.absPointer hhll
  .next (p.after.setPC p.value)

/-- `JMP (abs,X)` ($7C): R264, mode R127. -/
def execJmpAbsXInd (hhll : Word) (s : State) : Result :=
  let p := s.absXPointer hhll
  .next (p.after.setPC p.value)

/-- `JMP [abs]` ($DC): R265, mode R126. -/
def execJmpAbsLong (hhll : Word) (s : State) : Result :=
  let p := s.absLongPointer hhll
  .next (p.after.jumpLong p.value)

/-- `JSL long` ($22): R266, mode R142; new, pushes `K` and `PC + 3`. -/
def execJsl (hhmmll : Addr) (s : State) : Result :=
  .next ((s.push24 .new s.K (s.PC + 3)).jumpLong hhmmll)

/-- `JSR abs` ($20): R267, mode R122; old, pushes `PC + 2`. -/
def execJsrAbs (hhll : Word) (s : State) : Result :=
  .next ((s.push16 .old (s.PC + 2)).setPC hhll)

/-- `JSR (abs,X)` ($FC): R268, mode R127; new, pushes before it reads its pointer (log 14). -/
def execJsrAbsXInd (hhll : Word) (s : State) : Result :=
  let p := (s.push16 .new (s.PC + 2)).absXPointer hhll
  .next (p.after.setPC p.value)

/-- `RTL` ($6B): R269; new, the increment does not carry into the bank. -/
def execRtl (s : State) : Result :=
  let ret := s.pull24 .new
  .next ((ret.after.setPC (offsetOf ret.value + 1)).setK (bankOf ret.value))

/-- `RTS` ($60): R270; old. -/
def execRts (s : State) : Result :=
  let ret := s.pull16 .old
  .next (ret.after.setPC (ret.value + 1))

end Sys2Proof.Machine
end

