-- ==== Sys2Proof/Machine/LoadStore.lean ====
section
/-! DEFINITION. LDA LDX LDY STA STX STY STZ (`48_load_store.md` R310 to R318). -/

namespace Sys2Proof.Machine

/-- LDA: `Acc <- data`, `n` and `z` at width `M` (R311, R318). -/
def State.lda (s : State) (data : Word) : State := s.putAccNZ data

/-- LDX: `X <- zext_16(data)`, `n` and `z` at width `XW` (R312, R318). -/
def State.ldx (s : State) (data : Word) : State := (s.setX data).setNZ s.xWidth data

/-- LDY: `Y <- zext_16(data)`, `n` and `z` at width `XW` (R313, R318). -/
def State.ldy (s : State) (data : Word) : State := (s.setY data).setNZ s.xWidth data

/-- `LDA (dir,X)` ($A1): R311, mode R137. -/
def execLdaDirXInd (ll : Byte) (s : State) : Result :=
  loadM State.lda (eaDirXInd ll) 2 s

/-- `LDA stk,S` ($A3): R311, mode R150. -/
def execLdaStkS (ll : Byte) (s : State) : Result :=
  loadM State.lda (found (eaStkS ll)) 2 s

/-- `LDA dir` ($A5): R311, mode R132. -/
def execLdaDir (ll : Byte) (s : State) : Result :=
  loadM State.lda (found (eaDir ll)) 2 s

/-- `LDA [dir]` ($A7): R311, mode R136. -/
def execLdaDirLong (ll : Byte) (s : State) : Result :=
  loadM State.lda (eaDirLong ll) 2 s

/-- `LDA imm` ($A9): R311, mode R140. -/
def execLdaImm (imm : Word) (s : State) : Result :=
  immM State.lda imm s

/-- `LDA abs` ($AD): R311, mode R122. -/
def execLdaAbs (hhll : Word) (s : State) : Result :=
  loadM State.lda (found (eaAbs hhll)) 3 s

/-- `LDA long` ($AF): R311, mode R142. -/
def execLdaLong (hhmmll : Addr) (s : State) : Result :=
  loadM State.lda (found (eaLong hhmmll)) 4 s

/-- `LDA (dir),Y` ($B1): R311, mode R138. -/
def execLdaDirIndY (ll : Byte) (s : State) : Result :=
  loadM State.lda (eaDirIndY ll) 2 s

/-- `LDA (dir)` ($B2): R311, mode R135. -/
def execLdaDirInd (ll : Byte) (s : State) : Result :=
  loadM State.lda (eaDirInd ll) 2 s

/-- `LDA (stk,S),Y` ($B3): R311, mode R151. -/
def execLdaStkSIndY (ll : Byte) (s : State) : Result :=
  loadM State.lda (eaStkSIndY ll) 2 s

/-- `LDA dir,X` ($B5): R311, mode R133. -/
def execLdaDirX (ll : Byte) (s : State) : Result :=
  loadM State.lda (found (eaDirX ll)) 2 s

/-- `LDA [dir],Y` ($B7): R311, mode R139. -/
def execLdaDirLongY (ll : Byte) (s : State) : Result :=
  loadM State.lda (eaDirLongY ll) 2 s

/-- `LDA abs,Y` ($B9): R311, mode R124. -/
def execLdaAbsY (hhll : Word) (s : State) : Result :=
  loadM State.lda (found (eaAbsY hhll)) 3 s

/-- `LDA abs,X` ($BD): R311, mode R123. -/
def execLdaAbsX (hhll : Word) (s : State) : Result :=
  loadM State.lda (found (eaAbsX hhll)) 3 s

/-- `LDA long,X` ($BF): R311, mode R143. -/
def execLdaLongX (hhmmll : Addr) (s : State) : Result :=
  loadM State.lda (found (eaLongX hhmmll)) 4 s

/-- `LDX imm` ($A2): R312, mode R140. -/
def execLdxImm (imm : Word) (s : State) : Result :=
  immX State.ldx imm s

/-- `LDX dir` ($A6): R312, mode R132. -/
def execLdxDir (ll : Byte) (s : State) : Result :=
  loadX State.ldx (eaDir ll) 2 s

/-- `LDX abs` ($AE): R312, mode R122. -/
def execLdxAbs (hhll : Word) (s : State) : Result :=
  loadX State.ldx (eaAbs hhll) 3 s

/-- `LDX dir,Y` ($B6): R312, mode R134. -/
def execLdxDirY (ll : Byte) (s : State) : Result :=
  loadX State.ldx (eaDirY ll) 2 s

/-- `LDX abs,Y` ($BE): R312, mode R124. -/
def execLdxAbsY (hhll : Word) (s : State) : Result :=
  loadX State.ldx (eaAbsY hhll) 3 s

/-- `LDY imm` ($A0): R313, mode R140. -/
def execLdyImm (imm : Word) (s : State) : Result :=
  immX State.ldy imm s

/-- `LDY dir` ($A4): R313, mode R132. -/
def execLdyDir (ll : Byte) (s : State) : Result :=
  loadX State.ldy (eaDir ll) 2 s

/-- `LDY abs` ($AC): R313, mode R122. -/
def execLdyAbs (hhll : Word) (s : State) : Result :=
  loadX State.ldy (eaAbs hhll) 3 s

/-- `LDY dir,X` ($B4): R313, mode R133. -/
def execLdyDirX (ll : Byte) (s : State) : Result :=
  loadX State.ldy (eaDirX ll) 2 s

/-- `LDY abs,X` ($BC): R313, mode R123. -/
def execLdyAbsX (hhll : Word) (s : State) : Result :=
  loadX State.ldy (eaAbsX hhll) 3 s

/-- `STA (dir,X)` ($81): R314, mode R137. -/
def execStaDirXInd (ll : Byte) (s : State) : Result :=
  store s.mWidth s.acc (eaDirXInd ll) 2 s

/-- `STA stk,S` ($83): R314, mode R150. -/
def execStaStkS (ll : Byte) (s : State) : Result :=
  store s.mWidth s.acc (found (eaStkS ll)) 2 s

/-- `STA dir` ($85): R314, mode R132. -/
def execStaDir (ll : Byte) (s : State) : Result :=
  store s.mWidth s.acc (found (eaDir ll)) 2 s

/-- `STA [dir]` ($87): R314, mode R136. -/
def execStaDirLong (ll : Byte) (s : State) : Result :=
  store s.mWidth s.acc (eaDirLong ll) 2 s

/-- `STA abs` ($8D): R314, mode R122. -/
def execStaAbs (hhll : Word) (s : State) : Result :=
  store s.mWidth s.acc (found (eaAbs hhll)) 3 s

/-- `STA long` ($8F): R314, mode R142. -/
def execStaLong (hhmmll : Addr) (s : State) : Result :=
  store s.mWidth s.acc (found (eaLong hhmmll)) 4 s

/-- `STA (dir),Y` ($91): R314, mode R138. -/
def execStaDirIndY (ll : Byte) (s : State) : Result :=
  store s.mWidth s.acc (eaDirIndY ll) 2 s

/-- `STA (dir)` ($92): R314, mode R135. -/
def execStaDirInd (ll : Byte) (s : State) : Result :=
  store s.mWidth s.acc (eaDirInd ll) 2 s

/-- `STA (stk,S),Y` ($93): R314, mode R151. -/
def execStaStkSIndY (ll : Byte) (s : State) : Result :=
  store s.mWidth s.acc (eaStkSIndY ll) 2 s

/-- `STA dir,X` ($95): R314, mode R133. -/
def execStaDirX (ll : Byte) (s : State) : Result :=
  store s.mWidth s.acc (found (eaDirX ll)) 2 s

/-- `STA [dir],Y` ($97): R314, mode R139. -/
def execStaDirLongY (ll : Byte) (s : State) : Result :=
  store s.mWidth s.acc (eaDirLongY ll) 2 s

/-- `STA abs,Y` ($99): R314, mode R124. -/
def execStaAbsY (hhll : Word) (s : State) : Result :=
  store s.mWidth s.acc (found (eaAbsY hhll)) 3 s

/-- `STA abs,X` ($9D): R314, mode R123. -/
def execStaAbsX (hhll : Word) (s : State) : Result :=
  store s.mWidth s.acc (found (eaAbsX hhll)) 3 s

/-- `STA long,X` ($9F): R314, mode R143. -/
def execStaLongX (hhmmll : Addr) (s : State) : Result :=
  store s.mWidth s.acc (found (eaLongX hhmmll)) 4 s

/-- `STX dir` ($86): R315, mode R132. -/
def execStxDir (ll : Byte) (s : State) : Result :=
  store s.xWidth s.X (found (eaDir ll)) 2 s

/-- `STX abs` ($8E): R315, mode R122. -/
def execStxAbs (hhll : Word) (s : State) : Result :=
  store s.xWidth s.X (found (eaAbs hhll)) 3 s

/-- `STX dir,Y` ($96): R315, mode R134. -/
def execStxDirY (ll : Byte) (s : State) : Result :=
  store s.xWidth s.X (found (eaDirY ll)) 2 s

/-- `STY dir` ($84): R316, mode R132. -/
def execStyDir (ll : Byte) (s : State) : Result :=
  store s.xWidth s.Y (found (eaDir ll)) 2 s

/-- `STY abs` ($8C): R316, mode R122. -/
def execStyAbs (hhll : Word) (s : State) : Result :=
  store s.xWidth s.Y (found (eaAbs hhll)) 3 s

/-- `STY dir,X` ($94): R316, mode R133. -/
def execStyDirX (ll : Byte) (s : State) : Result :=
  store s.xWidth s.Y (found (eaDirX ll)) 2 s

/-- `STZ dir` ($64): R317, mode R132. -/
def execStzDir (ll : Byte) (s : State) : Result :=
  store s.mWidth 0 (found (eaDir ll)) 2 s

/-- `STZ dir,X` ($74): R317, mode R133. -/
def execStzDirX (ll : Byte) (s : State) : Result :=
  store s.mWidth 0 (found (eaDirX ll)) 2 s

/-- `STZ abs` ($9C): R317, mode R122. -/
def execStzAbs (hhll : Word) (s : State) : Result :=
  store s.mWidth 0 (found (eaAbs hhll)) 3 s

/-- `STZ abs,X` ($9E): R317, mode R123. -/
def execStzAbsX (hhll : Word) (s : State) : Result :=
  store s.mWidth 0 (found (eaAbsX hhll)) 3 s

end Sys2Proof.Machine
end

