-- ==== Sys2Proof/Machine/LogicBit.lean ====
section
/-! DEFINITION. AND EOR ORA, BIT, TRB TSB (`42_logic_bit.md` R210 to R217). -/

namespace Sys2Proof.Machine

/-- AND of `data` into `Acc` (R211). -/
def State.andData (s : State) (data : Word) : State := s.putAccNZ (s.acc &&& data)

/-- EOR of `data` into `Acc` (R212). -/
def State.eorData (s : State) (data : Word) : State := s.putAccNZ (s.acc ^^^ data)

/-- ORA of `data` into `Acc` (R213). -/
def State.oraData (s : State) (data : Word) : State := s.putAccNZ (s.acc ||| data)

/-- TRB or TSB: write `f Acc data` back; `z` is that of `Acc & data` with the data as read (R217). -/
def testAndStore (f : Word → Word → Word) (ea : State → DataAddr) (len : Word) (s : State) : Result :=
  let data := s.readData s.mWidth (ea s)
  .next (((data.after.writeData s.mWidth (ea s) (f s.acc data.value)).testBits data.value).advance len)

/-- What TRB writes back: the bits of `Acc` cleared (R215). -/
def resetBits (acc data : Word) : Word := data &&& ~~~acc

/-- What TSB writes back: the bits of `Acc` set (R216). -/
def setBits (acc data : Word) : Word := data ||| acc

/-- `AND (dir,X)` ($21): R211, mode R137. -/
def execAndDirXInd (ll : Byte) (s : State) : Result :=
  loadM State.andData (eaDirXInd ll) 2 s

/-- `AND stk,S` ($23): R211, mode R150. -/
def execAndStkS (ll : Byte) (s : State) : Result :=
  loadM State.andData (found (eaStkS ll)) 2 s

/-- `AND dir` ($25): R211, mode R132. -/
def execAndDir (ll : Byte) (s : State) : Result :=
  loadM State.andData (found (eaDir ll)) 2 s

/-- `AND [dir]` ($27): R211, mode R136. -/
def execAndDirLong (ll : Byte) (s : State) : Result :=
  loadM State.andData (eaDirLong ll) 2 s

/-- `AND imm` ($29): R211, mode R140. -/
def execAndImm (imm : Word) (s : State) : Result :=
  immM State.andData imm s

/-- `AND abs` ($2D): R211, mode R122. -/
def execAndAbs (hhll : Word) (s : State) : Result :=
  loadM State.andData (found (eaAbs hhll)) 3 s

/-- `AND long` ($2F): R211, mode R142. -/
def execAndLong (hhmmll : Addr) (s : State) : Result :=
  loadM State.andData (found (eaLong hhmmll)) 4 s

/-- `AND (dir),Y` ($31): R211, mode R138. -/
def execAndDirIndY (ll : Byte) (s : State) : Result :=
  loadM State.andData (eaDirIndY ll) 2 s

/-- `AND (dir)` ($32): R211, mode R135. -/
def execAndDirInd (ll : Byte) (s : State) : Result :=
  loadM State.andData (eaDirInd ll) 2 s

/-- `AND (stk,S),Y` ($33): R211, mode R151. -/
def execAndStkSIndY (ll : Byte) (s : State) : Result :=
  loadM State.andData (eaStkSIndY ll) 2 s

/-- `AND dir,X` ($35): R211, mode R133. -/
def execAndDirX (ll : Byte) (s : State) : Result :=
  loadM State.andData (found (eaDirX ll)) 2 s

/-- `AND [dir],Y` ($37): R211, mode R139. -/
def execAndDirLongY (ll : Byte) (s : State) : Result :=
  loadM State.andData (eaDirLongY ll) 2 s

/-- `AND abs,Y` ($39): R211, mode R124. -/
def execAndAbsY (hhll : Word) (s : State) : Result :=
  loadM State.andData (found (eaAbsY hhll)) 3 s

/-- `AND abs,X` ($3D): R211, mode R123. -/
def execAndAbsX (hhll : Word) (s : State) : Result :=
  loadM State.andData (found (eaAbsX hhll)) 3 s

/-- `AND long,X` ($3F): R211, mode R143. -/
def execAndLongX (hhmmll : Addr) (s : State) : Result :=
  loadM State.andData (found (eaLongX hhmmll)) 4 s

/-- `EOR (dir,X)` ($41): R212, mode R137. -/
def execEorDirXInd (ll : Byte) (s : State) : Result :=
  loadM State.eorData (eaDirXInd ll) 2 s

/-- `EOR stk,S` ($43): R212, mode R150. -/
def execEorStkS (ll : Byte) (s : State) : Result :=
  loadM State.eorData (found (eaStkS ll)) 2 s

/-- `EOR dir` ($45): R212, mode R132. -/
def execEorDir (ll : Byte) (s : State) : Result :=
  loadM State.eorData (found (eaDir ll)) 2 s

/-- `EOR [dir]` ($47): R212, mode R136. -/
def execEorDirLong (ll : Byte) (s : State) : Result :=
  loadM State.eorData (eaDirLong ll) 2 s

/-- `EOR imm` ($49): R212, mode R140. -/
def execEorImm (imm : Word) (s : State) : Result :=
  immM State.eorData imm s

/-- `EOR abs` ($4D): R212, mode R122. -/
def execEorAbs (hhll : Word) (s : State) : Result :=
  loadM State.eorData (found (eaAbs hhll)) 3 s

/-- `EOR long` ($4F): R212, mode R142. -/
def execEorLong (hhmmll : Addr) (s : State) : Result :=
  loadM State.eorData (found (eaLong hhmmll)) 4 s

/-- `EOR (dir),Y` ($51): R212, mode R138. -/
def execEorDirIndY (ll : Byte) (s : State) : Result :=
  loadM State.eorData (eaDirIndY ll) 2 s

/-- `EOR (dir)` ($52): R212, mode R135. -/
def execEorDirInd (ll : Byte) (s : State) : Result :=
  loadM State.eorData (eaDirInd ll) 2 s

/-- `EOR (stk,S),Y` ($53): R212, mode R151. -/
def execEorStkSIndY (ll : Byte) (s : State) : Result :=
  loadM State.eorData (eaStkSIndY ll) 2 s

/-- `EOR dir,X` ($55): R212, mode R133. -/
def execEorDirX (ll : Byte) (s : State) : Result :=
  loadM State.eorData (found (eaDirX ll)) 2 s

/-- `EOR [dir],Y` ($57): R212, mode R139. -/
def execEorDirLongY (ll : Byte) (s : State) : Result :=
  loadM State.eorData (eaDirLongY ll) 2 s

/-- `EOR abs,Y` ($59): R212, mode R124. -/
def execEorAbsY (hhll : Word) (s : State) : Result :=
  loadM State.eorData (found (eaAbsY hhll)) 3 s

/-- `EOR abs,X` ($5D): R212, mode R123. -/
def execEorAbsX (hhll : Word) (s : State) : Result :=
  loadM State.eorData (found (eaAbsX hhll)) 3 s

/-- `EOR long,X` ($5F): R212, mode R143. -/
def execEorLongX (hhmmll : Addr) (s : State) : Result :=
  loadM State.eorData (found (eaLongX hhmmll)) 4 s

/-- `ORA (dir,X)` ($01): R213, mode R137. -/
def execOraDirXInd (ll : Byte) (s : State) : Result :=
  loadM State.oraData (eaDirXInd ll) 2 s

/-- `ORA stk,S` ($03): R213, mode R150. -/
def execOraStkS (ll : Byte) (s : State) : Result :=
  loadM State.oraData (found (eaStkS ll)) 2 s

/-- `ORA dir` ($05): R213, mode R132. -/
def execOraDir (ll : Byte) (s : State) : Result :=
  loadM State.oraData (found (eaDir ll)) 2 s

/-- `ORA [dir]` ($07): R213, mode R136. -/
def execOraDirLong (ll : Byte) (s : State) : Result :=
  loadM State.oraData (eaDirLong ll) 2 s

/-- `ORA imm` ($09): R213, mode R140. -/
def execOraImm (imm : Word) (s : State) : Result :=
  immM State.oraData imm s

/-- `ORA abs` ($0D): R213, mode R122. -/
def execOraAbs (hhll : Word) (s : State) : Result :=
  loadM State.oraData (found (eaAbs hhll)) 3 s

/-- `ORA long` ($0F): R213, mode R142. -/
def execOraLong (hhmmll : Addr) (s : State) : Result :=
  loadM State.oraData (found (eaLong hhmmll)) 4 s

/-- `ORA (dir),Y` ($11): R213, mode R138. -/
def execOraDirIndY (ll : Byte) (s : State) : Result :=
  loadM State.oraData (eaDirIndY ll) 2 s

/-- `ORA (dir)` ($12): R213, mode R135. -/
def execOraDirInd (ll : Byte) (s : State) : Result :=
  loadM State.oraData (eaDirInd ll) 2 s

/-- `ORA (stk,S),Y` ($13): R213, mode R151. -/
def execOraStkSIndY (ll : Byte) (s : State) : Result :=
  loadM State.oraData (eaStkSIndY ll) 2 s

/-- `ORA dir,X` ($15): R213, mode R133. -/
def execOraDirX (ll : Byte) (s : State) : Result :=
  loadM State.oraData (found (eaDirX ll)) 2 s

/-- `ORA [dir],Y` ($17): R213, mode R139. -/
def execOraDirLongY (ll : Byte) (s : State) : Result :=
  loadM State.oraData (eaDirLongY ll) 2 s

/-- `ORA abs,Y` ($19): R213, mode R124. -/
def execOraAbsY (hhll : Word) (s : State) : Result :=
  loadM State.oraData (found (eaAbsY hhll)) 3 s

/-- `ORA abs,X` ($1D): R213, mode R123. -/
def execOraAbsX (hhll : Word) (s : State) : Result :=
  loadM State.oraData (found (eaAbsX hhll)) 3 s

/-- `ORA long,X` ($1F): R213, mode R143. -/
def execOraLongX (hhmmll : Addr) (s : State) : Result :=
  loadM State.oraData (found (eaLongX hhmmll)) 4 s

/-- `BIT dir` ($24): R214, mode R132. -/
def execBitDir (ll : Byte) (s : State) : Result :=
  loadM State.bitData (found (eaDir ll)) 2 s

/-- `BIT abs` ($2C): R214, mode R122. -/
def execBitAbs (hhll : Word) (s : State) : Result :=
  loadM State.bitData (found (eaAbs hhll)) 3 s

/-- `BIT dir,X` ($34): R214, mode R133. -/
def execBitDirX (ll : Byte) (s : State) : Result :=
  loadM State.bitData (found (eaDirX ll)) 2 s

/-- `BIT abs,X` ($3C): R214, mode R123. -/
def execBitAbsX (hhll : Word) (s : State) : Result :=
  loadM State.bitData (found (eaAbsX hhll)) 3 s

/-- `BIT imm` ($89): R214, mode R140; only `z` is written. -/
def execBitImm (imm : Word) (s : State) : Result :=
  immM State.testBits imm s

/-- `TRB dir` ($14): R215, mode R132. -/
def execTrbDir (ll : Byte) (s : State) : Result :=
  testAndStore resetBits (eaDir ll) 2 s

/-- `TRB abs` ($1C): R215, mode R122. -/
def execTrbAbs (hhll : Word) (s : State) : Result :=
  testAndStore resetBits (eaAbs hhll) 3 s

/-- `TSB dir` ($04): R216, mode R132. -/
def execTsbDir (ll : Byte) (s : State) : Result :=
  testAndStore setBits (eaDir ll) 2 s

/-- `TSB abs` ($0C): R216, mode R122. -/
def execTsbAbs (hhll : Word) (s : State) : Result :=
  testAndStore setBits (eaAbs hhll) 3 s

end Sys2Proof.Machine
end

