-- ==== Sys2Proof/Machine/NopWdm.lean ====
section
/-! DEFINITION. NOP WDM (`50_nop_wdm.md` R340 to R342). -/

namespace Sys2Proof.Machine

/-- `NOP` ($EA): R340. -/
def execNop (s : State) : Result :=
  plain (fun s => s) 1 s

/-- `WDM imm` ($42): R341, mode R140; the second byte is read and ignored. -/
def execWdm (_ll : Byte) (s : State) : Result :=
  plain (fun s => s) 2 s

end Sys2Proof.Machine
end

