-- ==== Sys2Proof/Machine/Shifts.lean ====
section
/-! DEFINITION. ASL LSR ROL ROR (`43_shifts.md` R230 to R235). -/

namespace Sys2Proof.Machine

/-- A shift or rotate of the accumulator (R230). -/
def shiftAcc (f : Width → Word → Word × Bool) (s : State) : Result :=
  let r := f s.mWidth s.acc
  .next (((s.setAcc r.1).shiftFlags s.mWidth r).advance 1)

/-- A shift or rotate of memory: read all of it, write it back, flags (R230, `20_memory.md` R80). -/
def shiftMem (f : Width → Word → Word × Bool) (ea : State → DataAddr) (len : Word) (s : State) : Result :=
  let data := s.readData s.mWidth (ea s)
  let r := f s.mWidth data.value
  .next (((data.after.writeData s.mWidth (ea s) r.1).shiftFlags s.mWidth r).advance len)

/-- `ASL dir` ($06): R231, mode R132. -/
def execAslDir (ll : Byte) (s : State) : Result :=
  shiftMem aslValue (eaDir ll) 2 s

/-- `ASL acc` ($0A): R231, mode R128. -/
def execAslAcc (s : State) : Result :=
  shiftAcc aslValue s

/-- `ASL abs` ($0E): R231, mode R122. -/
def execAslAbs (hhll : Word) (s : State) : Result :=
  shiftMem aslValue (eaAbs hhll) 3 s

/-- `ASL dir,X` ($16): R231, mode R133. -/
def execAslDirX (ll : Byte) (s : State) : Result :=
  shiftMem aslValue (eaDirX ll) 2 s

/-- `ASL abs,X` ($1E): R231, mode R123. -/
def execAslAbsX (hhll : Word) (s : State) : Result :=
  shiftMem aslValue (eaAbsX hhll) 3 s

/-- `LSR dir` ($46): R232, mode R132. -/
def execLsrDir (ll : Byte) (s : State) : Result :=
  shiftMem lsrValue (eaDir ll) 2 s

/-- `LSR acc` ($4A): R232, mode R128. -/
def execLsrAcc (s : State) : Result :=
  shiftAcc lsrValue s

/-- `LSR abs` ($4E): R232, mode R122. -/
def execLsrAbs (hhll : Word) (s : State) : Result :=
  shiftMem lsrValue (eaAbs hhll) 3 s

/-- `LSR dir,X` ($56): R232, mode R133. -/
def execLsrDirX (ll : Byte) (s : State) : Result :=
  shiftMem lsrValue (eaDirX ll) 2 s

/-- `LSR abs,X` ($5E): R232, mode R123. -/
def execLsrAbsX (hhll : Word) (s : State) : Result :=
  shiftMem lsrValue (eaAbsX hhll) 3 s

/-- `ROL dir` ($26): R233, mode R132. -/
def execRolDir (ll : Byte) (s : State) : Result :=
  shiftMem (fun w v => rolValue w s.c v) (eaDir ll) 2 s

/-- `ROL acc` ($2A): R233, mode R128. -/
def execRolAcc (s : State) : Result :=
  shiftAcc (fun w v => rolValue w s.c v) s

/-- `ROL abs` ($2E): R233, mode R122. -/
def execRolAbs (hhll : Word) (s : State) : Result :=
  shiftMem (fun w v => rolValue w s.c v) (eaAbs hhll) 3 s

/-- `ROL dir,X` ($36): R233, mode R133. -/
def execRolDirX (ll : Byte) (s : State) : Result :=
  shiftMem (fun w v => rolValue w s.c v) (eaDirX ll) 2 s

/-- `ROL abs,X` ($3E): R233, mode R123. -/
def execRolAbsX (hhll : Word) (s : State) : Result :=
  shiftMem (fun w v => rolValue w s.c v) (eaAbsX hhll) 3 s

/-- `ROR dir` ($66): R234, mode R132. -/
def execRorDir (ll : Byte) (s : State) : Result :=
  shiftMem (fun w v => rorValue w s.c v) (eaDir ll) 2 s

/-- `ROR acc` ($6A): R234, mode R128. -/
def execRorAcc (s : State) : Result :=
  shiftAcc (fun w v => rorValue w s.c v) s

/-- `ROR abs` ($6E): R234, mode R122. -/
def execRorAbs (hhll : Word) (s : State) : Result :=
  shiftMem (fun w v => rorValue w s.c v) (eaAbs hhll) 3 s

/-- `ROR dir,X` ($76): R234, mode R133. -/
def execRorDirX (ll : Byte) (s : State) : Result :=
  shiftMem (fun w v => rorValue w s.c v) (eaDirX ll) 2 s

/-- `ROR abs,X` ($7E): R234, mode R123. -/
def execRorAbsX (hhll : Word) (s : State) : Result :=
  shiftMem (fun w v => rorValue w s.c v) (eaAbsX hhll) 3 s

end Sys2Proof.Machine
end

