-- ==== Sys2Proof/Machine/SoftwareInterrupts.lean ====
section
/-! DEFINITION. BRK COP RTI (`46_software_interrupts.md` R280 to R286) over the interrupt sequence of `Ops.lean`. -/

namespace Sys2Proof.Machine

/-- `BRK` ($00): R281; the return address is `PC + 2`, and the signature byte is not read (R283, log 13). -/
def execBrk (s : State) : Result :=
  .next (s.enterInterrupt .brk (s.PC + 2))

/-- `COP imm` ($02): R282, mode R140; the signature byte has no effect (R283). -/
def execCop (_sig : Byte) (s : State) : Result :=
  .next (s.enterInterrupt .cop (s.PC + 2))

/-- `RTI` ($40): R285. -/
def execRti (s : State) : Result :=
  .next s.leaveInterrupt

end Sys2Proof.Machine
end

