-- ==== Sys2Proof/Machine/Stack.lean ====
section
/-! DEFINITION. The stack instructions (`51_stack.md` R345 to R369). Old and new are those of R349 (log 9). -/

namespace Sys2Proof.Machine

/-- A push of one byte (R345). -/
def pushByte (age : Age) (v : State → Byte) (s : State) : Result := plain (fun s => s.push8 age (v s)) 1 s

/-- A push of a register of width `w` (R345, R359). -/
def pushReg (w : Width) (v : Word) (s : State) : Result := plain (fun s => s.pushWidth .old w v) 1 s

/-- A push of 16 bits by a new instruction (R345, R358). -/
def pushWord (v : Word) (len : Word) (s : State) : Result := plain (fun s => s.push16 .new v) len s

/-- `PEA imm` ($F4): R346, mode R140; new. -/
def execPea (hhll : Word) (s : State) : Result :=
  pushWord hhll 3 s

/-- `PEI dir` ($D4): R347, mode R132; new, so neither the read nor the push wraps in a page. -/
def execPei (ll : Byte) (s : State) : Result :=
  let v := s.read16 (eaDirNew ll s)
  pushWord v.value 2 v.after

/-- `PER imm` ($62): R348, mode R140; new, the sum of R148. -/
def execPer (hhll : Word) (s : State) : Result :=
  pushWord (s.rel16Target hhll) 3 s

/-- `PHA` ($48): R350; old. -/
def execPha (s : State) : Result :=
  pushReg s.mWidth s.acc s

/-- `PHX` ($DA): R351; old. -/
def execPhx (s : State) : Result :=
  pushReg s.xWidth s.X s

/-- `PHY` ($5A): R352; old. -/
def execPhy (s : State) : Result :=
  pushReg s.xWidth s.Y s

/-- `PLA` ($68): R353; old. -/
def execPla (s : State) : Result :=
  let v := s.pullWidth .old s.mWidth
  .next ((v.after.putAccNZ v.value).advance 1)

/-- `PLX` ($FA): R354; old. -/
def execPlx (s : State) : Result :=
  let v := s.pullWidth .old s.xWidth
  .next (((v.after.setX v.value).setNZ s.xWidth v.value).advance 1)

/-- `PLY` ($7A): R355; old. -/
def execPly (s : State) : Result :=
  let v := s.pullWidth .old s.xWidth
  .next (((v.after.setY v.value).setNZ s.xWidth v.value).advance 1)

/-- `PHB` ($8B): R360; new. -/
def execPhb (s : State) : Result :=
  pushByte .new (fun s => s.DBR) s

/-- `PHD` ($0B): R361; new. -/
def execPhd (s : State) : Result :=
  pushWord s.D 1 s

/-- `PHK` ($4B): R362; new. -/
def execPhk (s : State) : Result :=
  pushByte .new (fun s => s.K) s

/-- `PHP` ($08): R366; old, all eight bits as stored. -/
def execPhp (s : State) : Result :=
  pushByte .old (fun s => s.P) s

/-- `PLB` ($AB): R367; new. -/
def execPlb (s : State) : Result :=
  let v := s.pull8 .new
  .next (((v.after.setDBR v.value).setNZ .w8 (zext16 v.value)).advance 1)

/-- `PLD` ($2B): R368; new, 16 bits whatever `m` is. -/
def execPld (s : State) : Result :=
  let v := s.pull16 .new
  .next (((v.after.setD v.value).setNZ .w16 v.value).advance 1)

/-- `PLP` ($28): R369; old, under the forcing rule. -/
def execPlp (s : State) : Result :=
  let v := s.pull8 .old
  .next ((v.after.setP v.value).advance 1)

end Sys2Proof.Machine
end

