-- ==== Sys2Proof/Machine/StpWai.lean ====
section
/-! DEFINITION. STP WAI (`52_stp_wai.md` R380 to R384). What ends either state is in `Recognition.lean`. -/

namespace Sys2Proof.Machine

/-- `STP` ($DB): R381. -/
def execStp (s : State) : Result :=
  plain (fun s => s.setRun .stopped) 1 s

/-- `WAI` ($CB): R383. -/
def execWai (s : State) : Result :=
  plain (fun s => s.setRun .waiting) 1 s

end Sys2Proof.Machine
end

