-- ==== Sys2Proof/Machine/Transfers.lean ====
section
/-! DEFINITION. The transfers and exchanges (`53_transfers.md` R390 to R407): the width is the destination's, and `S`, `D`, `C` by name are 16 bits wide. -/

namespace Sys2Proof.Machine

/-- `TAX` ($AA): R391. -/
def execTax (s : State) : Result :=
  plain (fun s => (s.setX s.C).setNZ s.xWidth s.C) 1 s

/-- `TAY` ($A8): R392. -/
def execTay (s : State) : Result :=
  plain (fun s => (s.setY s.C).setNZ s.xWidth s.C) 1 s

/-- `TSX` ($BA): R393. -/
def execTsx (s : State) : Result :=
  plain (fun s => (s.setX s.S).setNZ s.xWidth s.S) 1 s

/-- `TXA` ($8A): R394. -/
def execTxa (s : State) : Result :=
  plain (fun s => (s.setAcc s.X).setNZ s.mWidth s.X) 1 s

/-- `TXS` ($9A): R395; no flag, `SH` stays `$01` when `e = 1`. -/
def execTxs (s : State) : Result :=
  plain (fun s => s.setS s.X) 1 s

/-- `TXY` ($9B): R396. -/
def execTxy (s : State) : Result :=
  plain (fun s => (s.setY s.X).setNZ s.xWidth s.X) 1 s

/-- `TYA` ($98): R397. -/
def execTya (s : State) : Result :=
  plain (fun s => (s.setAcc s.Y).setNZ s.mWidth s.Y) 1 s

/-- `TYX` ($BB): R398. -/
def execTyx (s : State) : Result :=
  plain (fun s => (s.setX s.Y).setNZ s.xWidth s.Y) 1 s

/-- `TCD` ($5B): R400; 16 bits whatever `m` is. -/
def execTcd (s : State) : Result :=
  plain (fun s => (s.setD s.C).setNZ .w16 s.C) 1 s

/-- `TCS` ($1B): R401; no flag, `SH` stays `$01` when `e = 1`. -/
def execTcs (s : State) : Result :=
  plain (fun s => s.setS s.C) 1 s

/-- `TDC` ($7B): R402; 16 bits whatever `m` is. -/
def execTdc (s : State) : Result :=
  plain (fun s => (s.setC s.D).setNZ .w16 s.D) 1 s

/-- `TSC` ($3B): R403; 16 bits whatever `m` is. -/
def execTsc (s : State) : Result :=
  plain (fun s => (s.setC s.S).setNZ .w16 s.S) 1 s

/-- `XBA` ($EB): R404; the flags are those of the new `A`. -/
def execXba (s : State) : Result :=
  plain (fun s => (s.setC (word s.A s.B)).setNZ .w8 (zext16 s.B)) 1 s

/-- `XCE` ($FB): R406; under the forcing rule. -/
def execXce (s : State) : Result :=
  plain (fun s => (s.setCarry s.e).setE s.c) 1 s

end Sys2Proof.Machine
end

