-- ==== Sys2Proof/Syntax.lean ====
section
/-! DEFINITION. The instructions: one constructor for each of the 256 opcodes of `30_encoding.md` R96, those with
operand bytes in opcode order and then those without,
and the 24 addressing modes of R91. Operands are named as R92 names the operand bytes: `ll` is `$LL`, `hhll` is `$HH : $LL`,
`hhmmll` is `$HH : $MM : $LL`, `tt` and `ss` are `$TT` and `$SS`. `imm` is the data of an immediate of `M` or `XW` bits as one
number: `$LL`, or `$HH : $LL` (R93; `WellFormed.lean` says that 8-bit data has no high byte). -/

namespace Sys2Proof

/-- The addressing modes (R91). -/
inductive Mode where
  /-- `imp` -/
  | imp
  /-- `acc` -/
  | acc
  /-- `imm` -/
  | imm
  /-- `dir` -/
  | dir
  /-- `dir,X` -/
  | dirX
  /-- `dir,Y` -/
  | dirY
  /-- `(dir)` -/
  | dirInd
  /-- `[dir]` -/
  | dirLong
  /-- `(dir,X)` -/
  | dirXInd
  /-- `(dir),Y` -/
  | dirIndY
  /-- `[dir],Y` -/
  | dirLongY
  /-- `abs` -/
  | abs
  /-- `abs,X` -/
  | absX
  /-- `abs,Y` -/
  | absY
  /-- `(abs)` -/
  | absInd
  /-- `[abs]` -/
  | absLong
  /-- `(abs,X)` -/
  | absXInd
  /-- `long` -/
  | long
  /-- `long,X` -/
  | longX
  /-- `rel8` -/
  | rel8
  /-- `rel16` -/
  | rel16
  /-- `src,dest` -/
  | srcDest
  /-- `stk,S` -/
  | stkS
  /-- `(stk,S),Y` -/
  | stkSIndY
  deriving DecidableEq, Repr

/-- The instructions (R96): the comment gives opcode, mnemonic, mode and the rule of the meaning. -/
inductive Instr where
  | oraDirXInd (ll : Byte)  -- $01 ORA (dir,X), R213
  | cop (sig : Byte)  -- $02 COP imm, R282
  | oraStkS (ll : Byte)  -- $03 ORA stk,S, R213
  | tsbDir (ll : Byte)  -- $04 TSB dir, R216
  | oraDir (ll : Byte)  -- $05 ORA dir, R213
  | aslDir (ll : Byte)  -- $06 ASL dir, R231
  | oraDirLong (ll : Byte)  -- $07 ORA [dir], R213
  | oraImm (imm : Word)  -- $09 ORA imm, R213
  | tsbAbs (hhll : Word)  -- $0C TSB abs, R216
  | oraAbs (hhll : Word)  -- $0D ORA abs, R213
  | aslAbs (hhll : Word)  -- $0E ASL abs, R231
  | oraLong (hhmmll : Addr)  -- $0F ORA long, R213
  | bpl (ll : Byte)  -- $10 BPL rel8, R247
  | oraDirIndY (ll : Byte)  -- $11 ORA (dir),Y, R213
  | oraDirInd (ll : Byte)  -- $12 ORA (dir), R213
  | oraStkSIndY (ll : Byte)  -- $13 ORA (stk,S),Y, R213
  | trbDir (ll : Byte)  -- $14 TRB dir, R215
  | oraDirX (ll : Byte)  -- $15 ORA dir,X, R213
  | aslDirX (ll : Byte)  -- $16 ASL dir,X, R231
  | oraDirLongY (ll : Byte)  -- $17 ORA [dir],Y, R213
  | oraAbsY (hhll : Word)  -- $19 ORA abs,Y, R213
  | trbAbs (hhll : Word)  -- $1C TRB abs, R215
  | oraAbsX (hhll : Word)  -- $1D ORA abs,X, R213
  | aslAbsX (hhll : Word)  -- $1E ASL abs,X, R231
  | oraLongX (hhmmll : Addr)  -- $1F ORA long,X, R213
  | jsrAbs (hhll : Word)  -- $20 JSR abs, R267
  | andDirXInd (ll : Byte)  -- $21 AND (dir,X), R211
  | jsl (hhmmll : Addr)  -- $22 JSL long, R266
  | andStkS (ll : Byte)  -- $23 AND stk,S, R211
  | bitDir (ll : Byte)  -- $24 BIT dir, R214
  | andDir (ll : Byte)  -- $25 AND dir, R211
  | rolDir (ll : Byte)  -- $26 ROL dir, R233
  | andDirLong (ll : Byte)  -- $27 AND [dir], R211
  | andImm (imm : Word)  -- $29 AND imm, R211
  | bitAbs (hhll : Word)  -- $2C BIT abs, R214
  | andAbs (hhll : Word)  -- $2D AND abs, R211
  | rolAbs (hhll : Word)  -- $2E ROL abs, R233
  | andLong (hhmmll : Addr)  -- $2F AND long, R211
  | bmi (ll : Byte)  -- $30 BMI rel8, R245
  | andDirIndY (ll : Byte)  -- $31 AND (dir),Y, R211
  | andDirInd (ll : Byte)  -- $32 AND (dir), R211
  | andStkSIndY (ll : Byte)  -- $33 AND (stk,S),Y, R211
  | bitDirX (ll : Byte)  -- $34 BIT dir,X, R214
  | andDirX (ll : Byte)  -- $35 AND dir,X, R211
  | rolDirX (ll : Byte)  -- $36 ROL dir,X, R233
  | andDirLongY (ll : Byte)  -- $37 AND [dir],Y, R211
  | andAbsY (hhll : Word)  -- $39 AND abs,Y, R211
  | bitAbsX (hhll : Word)  -- $3C BIT abs,X, R214
  | andAbsX (hhll : Word)  -- $3D AND abs,X, R211
  | rolAbsX (hhll : Word)  -- $3E ROL abs,X, R233
  | andLongX (hhmmll : Addr)  -- $3F AND long,X, R211
  | eorDirXInd (ll : Byte)  -- $41 EOR (dir,X), R212
  | wdm (ll : Byte)  -- $42 WDM imm, R341
  | eorStkS (ll : Byte)  -- $43 EOR stk,S, R212
  | mvp (tt : Byte) (ss : Byte)  -- $44 MVP src,dest, R334
  | eorDir (ll : Byte)  -- $45 EOR dir, R212
  | lsrDir (ll : Byte)  -- $46 LSR dir, R232
  | eorDirLong (ll : Byte)  -- $47 EOR [dir], R212
  | eorImm (imm : Word)  -- $49 EOR imm, R212
  | jmpAbs (hhll : Word)  -- $4C JMP abs, R261
  | eorAbs (hhll : Word)  -- $4D EOR abs, R212
  | lsrAbs (hhll : Word)  -- $4E LSR abs, R232
  | eorLong (hhmmll : Addr)  -- $4F EOR long, R212
  | bvc (ll : Byte)  -- $50 BVC rel8, R249
  | eorDirIndY (ll : Byte)  -- $51 EOR (dir),Y, R212
  | eorDirInd (ll : Byte)  -- $52 EOR (dir), R212
  | eorStkSIndY (ll : Byte)  -- $53 EOR (stk,S),Y, R212
  | mvn (tt : Byte) (ss : Byte)  -- $54 MVN src,dest, R332
  | eorDirX (ll : Byte)  -- $55 EOR dir,X, R212
  | lsrDirX (ll : Byte)  -- $56 LSR dir,X, R232
  | eorDirLongY (ll : Byte)  -- $57 EOR [dir],Y, R212
  | eorAbsY (hhll : Word)  -- $59 EOR abs,Y, R212
  | jmpLong (hhmmll : Addr)  -- $5C JMP long, R262
  | eorAbsX (hhll : Word)  -- $5D EOR abs,X, R212
  | lsrAbsX (hhll : Word)  -- $5E LSR abs,X, R232
  | eorLongX (hhmmll : Addr)  -- $5F EOR long,X, R212
  | adcDirXInd (ll : Byte)  -- $61 ADC (dir,X), R171
  | per (hhll : Word)  -- $62 PER imm, R348
  | adcStkS (ll : Byte)  -- $63 ADC stk,S, R171
  | stzDir (ll : Byte)  -- $64 STZ dir, R317
  | adcDir (ll : Byte)  -- $65 ADC dir, R171
  | rorDir (ll : Byte)  -- $66 ROR dir, R234
  | adcDirLong (ll : Byte)  -- $67 ADC [dir], R171
  | adcImm (imm : Word)  -- $69 ADC imm, R171
  | jmpAbsInd (hhll : Word)  -- $6C JMP (abs), R263
  | adcAbs (hhll : Word)  -- $6D ADC abs, R171
  | rorAbs (hhll : Word)  -- $6E ROR abs, R234
  | adcLong (hhmmll : Addr)  -- $6F ADC long, R171
  | bvs (ll : Byte)  -- $70 BVS rel8, R250
  | adcDirIndY (ll : Byte)  -- $71 ADC (dir),Y, R171
  | adcDirInd (ll : Byte)  -- $72 ADC (dir), R171
  | adcStkSIndY (ll : Byte)  -- $73 ADC (stk,S),Y, R171
  | stzDirX (ll : Byte)  -- $74 STZ dir,X, R317
  | adcDirX (ll : Byte)  -- $75 ADC dir,X, R171
  | rorDirX (ll : Byte)  -- $76 ROR dir,X, R234
  | adcDirLongY (ll : Byte)  -- $77 ADC [dir],Y, R171
  | adcAbsY (hhll : Word)  -- $79 ADC abs,Y, R171
  | jmpAbsXInd (hhll : Word)  -- $7C JMP (abs,X), R264
  | adcAbsX (hhll : Word)  -- $7D ADC abs,X, R171
  | rorAbsX (hhll : Word)  -- $7E ROR abs,X, R234
  | adcLongX (hhmmll : Addr)  -- $7F ADC long,X, R171
  | bra (ll : Byte)  -- $80 BRA rel8, R248
  | staDirXInd (ll : Byte)  -- $81 STA (dir,X), R314
  | brl (hhll : Word)  -- $82 BRL rel16, R251
  | staStkS (ll : Byte)  -- $83 STA stk,S, R314
  | styDir (ll : Byte)  -- $84 STY dir, R316
  | staDir (ll : Byte)  -- $85 STA dir, R314
  | stxDir (ll : Byte)  -- $86 STX dir, R315
  | staDirLong (ll : Byte)  -- $87 STA [dir], R314
  | bitImm (imm : Word)  -- $89 BIT imm, R214
  | styAbs (hhll : Word)  -- $8C STY abs, R316
  | staAbs (hhll : Word)  -- $8D STA abs, R314
  | stxAbs (hhll : Word)  -- $8E STX abs, R315
  | staLong (hhmmll : Addr)  -- $8F STA long, R314
  | bcc (ll : Byte)  -- $90 BCC rel8, R242
  | staDirIndY (ll : Byte)  -- $91 STA (dir),Y, R314
  | staDirInd (ll : Byte)  -- $92 STA (dir), R314
  | staStkSIndY (ll : Byte)  -- $93 STA (stk,S),Y, R314
  | styDirX (ll : Byte)  -- $94 STY dir,X, R316
  | staDirX (ll : Byte)  -- $95 STA dir,X, R314
  | stxDirY (ll : Byte)  -- $96 STX dir,Y, R315
  | staDirLongY (ll : Byte)  -- $97 STA [dir],Y, R314
  | staAbsY (hhll : Word)  -- $99 STA abs,Y, R314
  | stzAbs (hhll : Word)  -- $9C STZ abs, R317
  | staAbsX (hhll : Word)  -- $9D STA abs,X, R314
  | stzAbsX (hhll : Word)  -- $9E STZ abs,X, R317
  | staLongX (hhmmll : Addr)  -- $9F STA long,X, R314
  | ldyImm (imm : Word)  -- $A0 LDY imm, R313
  | ldaDirXInd (ll : Byte)  -- $A1 LDA (dir,X), R311
  | ldxImm (imm : Word)  -- $A2 LDX imm, R312
  | ldaStkS (ll : Byte)  -- $A3 LDA stk,S, R311
  | ldyDir (ll : Byte)  -- $A4 LDY dir, R313
  | ldaDir (ll : Byte)  -- $A5 LDA dir, R311
  | ldxDir (ll : Byte)  -- $A6 LDX dir, R312
  | ldaDirLong (ll : Byte)  -- $A7 LDA [dir], R311
  | ldaImm (imm : Word)  -- $A9 LDA imm, R311
  | ldyAbs (hhll : Word)  -- $AC LDY abs, R313
  | ldaAbs (hhll : Word)  -- $AD LDA abs, R311
  | ldxAbs (hhll : Word)  -- $AE LDX abs, R312
  | ldaLong (hhmmll : Addr)  -- $AF LDA long, R311
  | bcs (ll : Byte)  -- $B0 BCS rel8, R243
  | ldaDirIndY (ll : Byte)  -- $B1 LDA (dir),Y, R311
  | ldaDirInd (ll : Byte)  -- $B2 LDA (dir), R311
  | ldaStkSIndY (ll : Byte)  -- $B3 LDA (stk,S),Y, R311
  | ldyDirX (ll : Byte)  -- $B4 LDY dir,X, R313
  | ldaDirX (ll : Byte)  -- $B5 LDA dir,X, R311
  | ldxDirY (ll : Byte)  -- $B6 LDX dir,Y, R312
  | ldaDirLongY (ll : Byte)  -- $B7 LDA [dir],Y, R311
  | ldaAbsY (hhll : Word)  -- $B9 LDA abs,Y, R311
  | ldyAbsX (hhll : Word)  -- $BC LDY abs,X, R313
  | ldaAbsX (hhll : Word)  -- $BD LDA abs,X, R311
  | ldxAbsY (hhll : Word)  -- $BE LDX abs,Y, R312
  | ldaLongX (hhmmll : Addr)  -- $BF LDA long,X, R311
  | cpyImm (imm : Word)  -- $C0 CPY imm, R193
  | cmpDirXInd (ll : Byte)  -- $C1 CMP (dir,X), R191
  | rep (mask : Byte)  -- $C2 REP imm, R298
  | cmpStkS (ll : Byte)  -- $C3 CMP stk,S, R191
  | cpyDir (ll : Byte)  -- $C4 CPY dir, R193
  | cmpDir (ll : Byte)  -- $C5 CMP dir, R191
  | decDir (ll : Byte)  -- $C6 DEC dir, R194
  | cmpDirLong (ll : Byte)  -- $C7 CMP [dir], R191
  | cmpImm (imm : Word)  -- $C9 CMP imm, R191
  | cpyAbs (hhll : Word)  -- $CC CPY abs, R193
  | cmpAbs (hhll : Word)  -- $CD CMP abs, R191
  | decAbs (hhll : Word)  -- $CE DEC abs, R194
  | cmpLong (hhmmll : Addr)  -- $CF CMP long, R191
  | bne (ll : Byte)  -- $D0 BNE rel8, R246
  | cmpDirIndY (ll : Byte)  -- $D1 CMP (dir),Y, R191
  | cmpDirInd (ll : Byte)  -- $D2 CMP (dir), R191
  | cmpStkSIndY (ll : Byte)  -- $D3 CMP (stk,S),Y, R191
  | pei (ll : Byte)  -- $D4 PEI dir, R347
  | cmpDirX (ll : Byte)  -- $D5 CMP dir,X, R191
  | decDirX (ll : Byte)  -- $D6 DEC dir,X, R194
  | cmpDirLongY (ll : Byte)  -- $D7 CMP [dir],Y, R191
  | cmpAbsY (hhll : Word)  -- $D9 CMP abs,Y, R191
  | jmpAbsLong (hhll : Word)  -- $DC JMP [abs], R265
  | cmpAbsX (hhll : Word)  -- $DD CMP abs,X, R191
  | decAbsX (hhll : Word)  -- $DE DEC abs,X, R194
  | cmpLongX (hhmmll : Addr)  -- $DF CMP long,X, R191
  | cpxImm (imm : Word)  -- $E0 CPX imm, R192
  | sbcDirXInd (ll : Byte)  -- $E1 SBC (dir,X), R172
  | sep (mask : Byte)  -- $E2 SEP imm, R299
  | sbcStkS (ll : Byte)  -- $E3 SBC stk,S, R172
  | cpxDir (ll : Byte)  -- $E4 CPX dir, R192
  | sbcDir (ll : Byte)  -- $E5 SBC dir, R172
  | incDir (ll : Byte)  -- $E6 INC dir, R197
  | sbcDirLong (ll : Byte)  -- $E7 SBC [dir], R172
  | sbcImm (imm : Word)  -- $E9 SBC imm, R172
  | cpxAbs (hhll : Word)  -- $EC CPX abs, R192
  | sbcAbs (hhll : Word)  -- $ED SBC abs, R172
  | incAbs (hhll : Word)  -- $EE INC abs, R197
  | sbcLong (hhmmll : Addr)  -- $EF SBC long, R172
  | beq (ll : Byte)  -- $F0 BEQ rel8, R244
  | sbcDirIndY (ll : Byte)  -- $F1 SBC (dir),Y, R172
  | sbcDirInd (ll : Byte)  -- $F2 SBC (dir), R172
  | sbcStkSIndY (ll : Byte)  -- $F3 SBC (stk,S),Y, R172
  | pea (hhll : Word)  -- $F4 PEA imm, R346
  | sbcDirX (ll : Byte)  -- $F5 SBC dir,X, R172
  | incDirX (ll : Byte)  -- $F6 INC dir,X, R197
  | sbcDirLongY (ll : Byte)  -- $F7 SBC [dir],Y, R172
  | sbcAbsY (hhll : Word)  -- $F9 SBC abs,Y, R172
  | jsrAbsXInd (hhll : Word)  -- $FC JSR (abs,X), R268
  | sbcAbsX (hhll : Word)  -- $FD SBC abs,X, R172
  | incAbsX (hhll : Word)  -- $FE INC abs,X, R197
  | sbcLongX (hhmmll : Addr)  -- $FF SBC long,X, R172
  | brk  -- $00 BRK imp, R281
  | php  -- $08 PHP imp, R366
  | aslAcc  -- $0A ASL acc, R231
  | phd  -- $0B PHD imp, R361
  | clc  -- $18 CLC imp, R291
  | incAcc  -- $1A INC acc, R197
  | tcs  -- $1B TCS imp, R401
  | plp  -- $28 PLP imp, R369
  | rolAcc  -- $2A ROL acc, R233
  | pld  -- $2B PLD imp, R368
  | sec  -- $38 SEC imp, R295
  | decAcc  -- $3A DEC acc, R194
  | tsc  -- $3B TSC imp, R403
  | rti  -- $40 RTI imp, R285
  | pha  -- $48 PHA imp, R350
  | lsrAcc  -- $4A LSR acc, R232
  | phk  -- $4B PHK imp, R362
  | cli  -- $58 CLI imp, R293
  | phy  -- $5A PHY imp, R352
  | tcd  -- $5B TCD imp, R400
  | rts  -- $60 RTS imp, R270
  | pla  -- $68 PLA imp, R353
  | rorAcc  -- $6A ROR acc, R234
  | rtl  -- $6B RTL imp, R269
  | sei  -- $78 SEI imp, R297
  | ply  -- $7A PLY imp, R355
  | tdc  -- $7B TDC imp, R402
  | dey  -- $88 DEY imp, R196
  | txa  -- $8A TXA imp, R394
  | phb  -- $8B PHB imp, R360
  | tya  -- $98 TYA imp, R397
  | txs  -- $9A TXS imp, R395
  | txy  -- $9B TXY imp, R396
  | tay  -- $A8 TAY imp, R392
  | tax  -- $AA TAX imp, R391
  | plb  -- $AB PLB imp, R367
  | clv  -- $B8 CLV imp, R294
  | tsx  -- $BA TSX imp, R393
  | tyx  -- $BB TYX imp, R398
  | iny  -- $C8 INY imp, R199
  | dex  -- $CA DEX imp, R195
  | wai  -- $CB WAI imp, R383
  | cld  -- $D8 CLD imp, R292
  | phx  -- $DA PHX imp, R351
  | stp  -- $DB STP imp, R381
  | inx  -- $E8 INX imp, R198
  | nop  -- $EA NOP imp, R340
  | xba  -- $EB XBA imp, R404
  | sed  -- $F8 SED imp, R296
  | plx  -- $FA PLX imp, R354
  | xce  -- $FB XCE imp, R406
  deriving DecidableEq, Repr

end Sys2Proof
end

