-- ==== Sys2Proof/Machine/Dispatch.lean ====
section
/-! DEFINITION. One arm per constructor of Instr: the meaning of each of the 256 opcodes (`30_encoding.md` R96). -/

namespace Sys2Proof.Machine

def exec (i : Instr) (s : State) : Host.Outcome State Fault Refusal :=
  match i with
  | .brk => Sys2Proof.Machine.execBrk s
  | .oraDirXInd ll => Sys2Proof.Machine.execOraDirXInd ll s
  | .cop sig => Sys2Proof.Machine.execCop sig s
  | .oraStkS ll => Sys2Proof.Machine.execOraStkS ll s
  | .tsbDir ll => Sys2Proof.Machine.execTsbDir ll s
  | .oraDir ll => Sys2Proof.Machine.execOraDir ll s
  | .aslDir ll => Sys2Proof.Machine.execAslDir ll s
  | .oraDirLong ll => Sys2Proof.Machine.execOraDirLong ll s
  | .php => Sys2Proof.Machine.execPhp s
  | .oraImm imm => Sys2Proof.Machine.execOraImm imm s
  | .aslAcc => Sys2Proof.Machine.execAslAcc s
  | .phd => Sys2Proof.Machine.execPhd s
  | .tsbAbs hhll => Sys2Proof.Machine.execTsbAbs hhll s
  | .oraAbs hhll => Sys2Proof.Machine.execOraAbs hhll s
  | .aslAbs hhll => Sys2Proof.Machine.execAslAbs hhll s
  | .oraLong hhmmll => Sys2Proof.Machine.execOraLong hhmmll s
  | .bpl ll => Sys2Proof.Machine.execBpl ll s
  | .oraDirIndY ll => Sys2Proof.Machine.execOraDirIndY ll s
  | .oraDirInd ll => Sys2Proof.Machine.execOraDirInd ll s
  | .oraStkSIndY ll => Sys2Proof.Machine.execOraStkSIndY ll s
  | .trbDir ll => Sys2Proof.Machine.execTrbDir ll s
  | .oraDirX ll => Sys2Proof.Machine.execOraDirX ll s
  | .aslDirX ll => Sys2Proof.Machine.execAslDirX ll s
  | .oraDirLongY ll => Sys2Proof.Machine.execOraDirLongY ll s
  | .clc => Sys2Proof.Machine.execClc s
  | .oraAbsY hhll => Sys2Proof.Machine.execOraAbsY hhll s
  | .incAcc => Sys2Proof.Machine.execIncAcc s
  | .tcs => Sys2Proof.Machine.execTcs s
  | .trbAbs hhll => Sys2Proof.Machine.execTrbAbs hhll s
  | .oraAbsX hhll => Sys2Proof.Machine.execOraAbsX hhll s
  | .aslAbsX hhll => Sys2Proof.Machine.execAslAbsX hhll s
  | .oraLongX hhmmll => Sys2Proof.Machine.execOraLongX hhmmll s
  | .jsrAbs hhll => Sys2Proof.Machine.execJsrAbs hhll s
  | .andDirXInd ll => Sys2Proof.Machine.execAndDirXInd ll s
  | .jsl hhmmll => Sys2Proof.Machine.execJsl hhmmll s
  | .andStkS ll => Sys2Proof.Machine.execAndStkS ll s
  | .bitDir ll => Sys2Proof.Machine.execBitDir ll s
  | .andDir ll => Sys2Proof.Machine.execAndDir ll s
  | .rolDir ll => Sys2Proof.Machine.execRolDir ll s
  | .andDirLong ll => Sys2Proof.Machine.execAndDirLong ll s
  | .plp => Sys2Proof.Machine.execPlp s
  | .andImm imm => Sys2Proof.Machine.execAndImm imm s
  | .rolAcc => Sys2Proof.Machine.execRolAcc s
  | .pld => Sys2Proof.Machine.execPld s
  | .bitAbs hhll => Sys2Proof.Machine.execBitAbs hhll s
  | .andAbs hhll => Sys2Proof.Machine.execAndAbs hhll s
  | .rolAbs hhll => Sys2Proof.Machine.execRolAbs hhll s
  | .andLong hhmmll => Sys2Proof.Machine.execAndLong hhmmll s
  | .bmi ll => Sys2Proof.Machine.execBmi ll s
  | .andDirIndY ll => Sys2Proof.Machine.execAndDirIndY ll s
  | .andDirInd ll => Sys2Proof.Machine.execAndDirInd ll s
  | .andStkSIndY ll => Sys2Proof.Machine.execAndStkSIndY ll s
  | .bitDirX ll => Sys2Proof.Machine.execBitDirX ll s
  | .andDirX ll => Sys2Proof.Machine.execAndDirX ll s
  | .rolDirX ll => Sys2Proof.Machine.execRolDirX ll s
  | .andDirLongY ll => Sys2Proof.Machine.execAndDirLongY ll s
  | .sec => Sys2Proof.Machine.execSec s
  | .andAbsY hhll => Sys2Proof.Machine.execAndAbsY hhll s
  | .decAcc => Sys2Proof.Machine.execDecAcc s
  | .tsc => Sys2Proof.Machine.execTsc s
  | .bitAbsX hhll => Sys2Proof.Machine.execBitAbsX hhll s
  | .andAbsX hhll => Sys2Proof.Machine.execAndAbsX hhll s
  | .rolAbsX hhll => Sys2Proof.Machine.execRolAbsX hhll s
  | .andLongX hhmmll => Sys2Proof.Machine.execAndLongX hhmmll s
  | .rti => Sys2Proof.Machine.execRti s
  | .eorDirXInd ll => Sys2Proof.Machine.execEorDirXInd ll s
  | .wdm ll => Sys2Proof.Machine.execWdm ll s
  | .eorStkS ll => Sys2Proof.Machine.execEorStkS ll s
  | .mvp tt ss => Sys2Proof.Machine.execMvp tt ss s
  | .eorDir ll => Sys2Proof.Machine.execEorDir ll s
  | .lsrDir ll => Sys2Proof.Machine.execLsrDir ll s
  | .eorDirLong ll => Sys2Proof.Machine.execEorDirLong ll s
  | .pha => Sys2Proof.Machine.execPha s
  | .eorImm imm => Sys2Proof.Machine.execEorImm imm s
  | .lsrAcc => Sys2Proof.Machine.execLsrAcc s
  | .phk => Sys2Proof.Machine.execPhk s
  | .jmpAbs hhll => Sys2Proof.Machine.execJmpAbs hhll s
  | .eorAbs hhll => Sys2Proof.Machine.execEorAbs hhll s
  | .lsrAbs hhll => Sys2Proof.Machine.execLsrAbs hhll s
  | .eorLong hhmmll => Sys2Proof.Machine.execEorLong hhmmll s
  | .bvc ll => Sys2Proof.Machine.execBvc ll s
  | .eorDirIndY ll => Sys2Proof.Machine.execEorDirIndY ll s
  | .eorDirInd ll => Sys2Proof.Machine.execEorDirInd ll s
  | .eorStkSIndY ll => Sys2Proof.Machine.execEorStkSIndY ll s
  | .mvn tt ss => Sys2Proof.Machine.execMvn tt ss s
  | .eorDirX ll => Sys2Proof.Machine.execEorDirX ll s
  | .lsrDirX ll => Sys2Proof.Machine.execLsrDirX ll s
  | .eorDirLongY ll => Sys2Proof.Machine.execEorDirLongY ll s
  | .cli => Sys2Proof.Machine.execCli s
  | .eorAbsY hhll => Sys2Proof.Machine.execEorAbsY hhll s
  | .phy => Sys2Proof.Machine.execPhy s
  | .tcd => Sys2Proof.Machine.execTcd s
  | .jmpLong hhmmll => Sys2Proof.Machine.execJmpLong hhmmll s
  | .eorAbsX hhll => Sys2Proof.Machine.execEorAbsX hhll s
  | .lsrAbsX hhll => Sys2Proof.Machine.execLsrAbsX hhll s
  | .eorLongX hhmmll => Sys2Proof.Machine.execEorLongX hhmmll s
  | .rts => Sys2Proof.Machine.execRts s
  | .adcDirXInd ll => Sys2Proof.Machine.execAdcDirXInd ll s
  | .per hhll => Sys2Proof.Machine.execPer hhll s
  | .adcStkS ll => Sys2Proof.Machine.execAdcStkS ll s
  | .stzDir ll => Sys2Proof.Machine.execStzDir ll s
  | .adcDir ll => Sys2Proof.Machine.execAdcDir ll s
  | .rorDir ll => Sys2Proof.Machine.execRorDir ll s
  | .adcDirLong ll => Sys2Proof.Machine.execAdcDirLong ll s
  | .pla => Sys2Proof.Machine.execPla s
  | .adcImm imm => Sys2Proof.Machine.execAdcImm imm s
  | .rorAcc => Sys2Proof.Machine.execRorAcc s
  | .rtl => Sys2Proof.Machine.execRtl s
  | .jmpAbsInd hhll => Sys2Proof.Machine.execJmpAbsInd hhll s
  | .adcAbs hhll => Sys2Proof.Machine.execAdcAbs hhll s
  | .rorAbs hhll => Sys2Proof.Machine.execRorAbs hhll s
  | .adcLong hhmmll => Sys2Proof.Machine.execAdcLong hhmmll s
  | .bvs ll => Sys2Proof.Machine.execBvs ll s
  | .adcDirIndY ll => Sys2Proof.Machine.execAdcDirIndY ll s
  | .adcDirInd ll => Sys2Proof.Machine.execAdcDirInd ll s
  | .adcStkSIndY ll => Sys2Proof.Machine.execAdcStkSIndY ll s
  | .stzDirX ll => Sys2Proof.Machine.execStzDirX ll s
  | .adcDirX ll => Sys2Proof.Machine.execAdcDirX ll s
  | .rorDirX ll => Sys2Proof.Machine.execRorDirX ll s
  | .adcDirLongY ll => Sys2Proof.Machine.execAdcDirLongY ll s
  | .sei => Sys2Proof.Machine.execSei s
  | .adcAbsY hhll => Sys2Proof.Machine.execAdcAbsY hhll s
  | .ply => Sys2Proof.Machine.execPly s
  | .tdc => Sys2Proof.Machine.execTdc s
  | .jmpAbsXInd hhll => Sys2Proof.Machine.execJmpAbsXInd hhll s
  | .adcAbsX hhll => Sys2Proof.Machine.execAdcAbsX hhll s
  | .rorAbsX hhll => Sys2Proof.Machine.execRorAbsX hhll s
  | .adcLongX hhmmll => Sys2Proof.Machine.execAdcLongX hhmmll s
  | .bra ll => Sys2Proof.Machine.execBra ll s
  | .staDirXInd ll => Sys2Proof.Machine.execStaDirXInd ll s
  | .brl hhll => Sys2Proof.Machine.execBrl hhll s
  | .staStkS ll => Sys2Proof.Machine.execStaStkS ll s
  | .styDir ll => Sys2Proof.Machine.execStyDir ll s
  | .staDir ll => Sys2Proof.Machine.execStaDir ll s
  | .stxDir ll => Sys2Proof.Machine.execStxDir ll s
  | .staDirLong ll => Sys2Proof.Machine.execStaDirLong ll s
  | .dey => Sys2Proof.Machine.execDey s
  | .bitImm imm => Sys2Proof.Machine.execBitImm imm s
  | .txa => Sys2Proof.Machine.execTxa s
  | .phb => Sys2Proof.Machine.execPhb s
  | .styAbs hhll => Sys2Proof.Machine.execStyAbs hhll s
  | .staAbs hhll => Sys2Proof.Machine.execStaAbs hhll s
  | .stxAbs hhll => Sys2Proof.Machine.execStxAbs hhll s
  | .staLong hhmmll => Sys2Proof.Machine.execStaLong hhmmll s
  | .bcc ll => Sys2Proof.Machine.execBcc ll s
  | .staDirIndY ll => Sys2Proof.Machine.execStaDirIndY ll s
  | .staDirInd ll => Sys2Proof.Machine.execStaDirInd ll s
  | .staStkSIndY ll => Sys2Proof.Machine.execStaStkSIndY ll s
  | .styDirX ll => Sys2Proof.Machine.execStyDirX ll s
  | .staDirX ll => Sys2Proof.Machine.execStaDirX ll s
  | .stxDirY ll => Sys2Proof.Machine.execStxDirY ll s
  | .staDirLongY ll => Sys2Proof.Machine.execStaDirLongY ll s
  | .tya => Sys2Proof.Machine.execTya s
  | .staAbsY hhll => Sys2Proof.Machine.execStaAbsY hhll s
  | .txs => Sys2Proof.Machine.execTxs s
  | .txy => Sys2Proof.Machine.execTxy s
  | .stzAbs hhll => Sys2Proof.Machine.execStzAbs hhll s
  | .staAbsX hhll => Sys2Proof.Machine.execStaAbsX hhll s
  | .stzAbsX hhll => Sys2Proof.Machine.execStzAbsX hhll s
  | .staLongX hhmmll => Sys2Proof.Machine.execStaLongX hhmmll s
  | .ldyImm imm => Sys2Proof.Machine.execLdyImm imm s
  | .ldaDirXInd ll => Sys2Proof.Machine.execLdaDirXInd ll s
  | .ldxImm imm => Sys2Proof.Machine.execLdxImm imm s
  | .ldaStkS ll => Sys2Proof.Machine.execLdaStkS ll s
  | .ldyDir ll => Sys2Proof.Machine.execLdyDir ll s
  | .ldaDir ll => Sys2Proof.Machine.execLdaDir ll s
  | .ldxDir ll => Sys2Proof.Machine.execLdxDir ll s
  | .ldaDirLong ll => Sys2Proof.Machine.execLdaDirLong ll s
  | .tay => Sys2Proof.Machine.execTay s
  | .ldaImm imm => Sys2Proof.Machine.execLdaImm imm s
  | .tax => Sys2Proof.Machine.execTax s
  | .plb => Sys2Proof.Machine.execPlb s
  | .ldyAbs hhll => Sys2Proof.Machine.execLdyAbs hhll s
  | .ldaAbs hhll => Sys2Proof.Machine.execLdaAbs hhll s
  | .ldxAbs hhll => Sys2Proof.Machine.execLdxAbs hhll s
  | .ldaLong hhmmll => Sys2Proof.Machine.execLdaLong hhmmll s
  | .bcs ll => Sys2Proof.Machine.execBcs ll s
  | .ldaDirIndY ll => Sys2Proof.Machine.execLdaDirIndY ll s
  | .ldaDirInd ll => Sys2Proof.Machine.execLdaDirInd ll s
  | .ldaStkSIndY ll => Sys2Proof.Machine.execLdaStkSIndY ll s
  | .ldyDirX ll => Sys2Proof.Machine.execLdyDirX ll s
  | .ldaDirX ll => Sys2Proof.Machine.execLdaDirX ll s
  | .ldxDirY ll => Sys2Proof.Machine.execLdxDirY ll s
  | .ldaDirLongY ll => Sys2Proof.Machine.execLdaDirLongY ll s
  | .clv => Sys2Proof.Machine.execClv s
  | .ldaAbsY hhll => Sys2Proof.Machine.execLdaAbsY hhll s
  | .tsx => Sys2Proof.Machine.execTsx s
  | .tyx => Sys2Proof.Machine.execTyx s
  | .ldyAbsX hhll => Sys2Proof.Machine.execLdyAbsX hhll s
  | .ldaAbsX hhll => Sys2Proof.Machine.execLdaAbsX hhll s
  | .ldxAbsY hhll => Sys2Proof.Machine.execLdxAbsY hhll s
  | .ldaLongX hhmmll => Sys2Proof.Machine.execLdaLongX hhmmll s
  | .cpyImm imm => Sys2Proof.Machine.execCpyImm imm s
  | .cmpDirXInd ll => Sys2Proof.Machine.execCmpDirXInd ll s
  | .rep mask => Sys2Proof.Machine.execRep mask s
  | .cmpStkS ll => Sys2Proof.Machine.execCmpStkS ll s
  | .cpyDir ll => Sys2Proof.Machine.execCpyDir ll s
  | .cmpDir ll => Sys2Proof.Machine.execCmpDir ll s
  | .decDir ll => Sys2Proof.Machine.execDecDir ll s
  | .cmpDirLong ll => Sys2Proof.Machine.execCmpDirLong ll s
  | .iny => Sys2Proof.Machine.execIny s
  | .cmpImm imm => Sys2Proof.Machine.execCmpImm imm s
  | .dex => Sys2Proof.Machine.execDex s
  | .wai => Sys2Proof.Machine.execWai s
  | .cpyAbs hhll => Sys2Proof.Machine.execCpyAbs hhll s
  | .cmpAbs hhll => Sys2Proof.Machine.execCmpAbs hhll s
  | .decAbs hhll => Sys2Proof.Machine.execDecAbs hhll s
  | .cmpLong hhmmll => Sys2Proof.Machine.execCmpLong hhmmll s
  | .bne ll => Sys2Proof.Machine.execBne ll s
  | .cmpDirIndY ll => Sys2Proof.Machine.execCmpDirIndY ll s
  | .cmpDirInd ll => Sys2Proof.Machine.execCmpDirInd ll s
  | .cmpStkSIndY ll => Sys2Proof.Machine.execCmpStkSIndY ll s
  | .pei ll => Sys2Proof.Machine.execPei ll s
  | .cmpDirX ll => Sys2Proof.Machine.execCmpDirX ll s
  | .decDirX ll => Sys2Proof.Machine.execDecDirX ll s
  | .cmpDirLongY ll => Sys2Proof.Machine.execCmpDirLongY ll s
  | .cld => Sys2Proof.Machine.execCld s
  | .cmpAbsY hhll => Sys2Proof.Machine.execCmpAbsY hhll s
  | .phx => Sys2Proof.Machine.execPhx s
  | .stp => Sys2Proof.Machine.execStp s
  | .jmpAbsLong hhll => Sys2Proof.Machine.execJmpAbsLong hhll s
  | .cmpAbsX hhll => Sys2Proof.Machine.execCmpAbsX hhll s
  | .decAbsX hhll => Sys2Proof.Machine.execDecAbsX hhll s
  | .cmpLongX hhmmll => Sys2Proof.Machine.execCmpLongX hhmmll s
  | .cpxImm imm => Sys2Proof.Machine.execCpxImm imm s
  | .sbcDirXInd ll => Sys2Proof.Machine.execSbcDirXInd ll s
  | .sep mask => Sys2Proof.Machine.execSep mask s
  | .sbcStkS ll => Sys2Proof.Machine.execSbcStkS ll s
  | .cpxDir ll => Sys2Proof.Machine.execCpxDir ll s
  | .sbcDir ll => Sys2Proof.Machine.execSbcDir ll s
  | .incDir ll => Sys2Proof.Machine.execIncDir ll s
  | .sbcDirLong ll => Sys2Proof.Machine.execSbcDirLong ll s
  | .inx => Sys2Proof.Machine.execInx s
  | .sbcImm imm => Sys2Proof.Machine.execSbcImm imm s
  | .nop => Sys2Proof.Machine.execNop s
  | .xba => Sys2Proof.Machine.execXba s
  | .cpxAbs hhll => Sys2Proof.Machine.execCpxAbs hhll s
  | .sbcAbs hhll => Sys2Proof.Machine.execSbcAbs hhll s
  | .incAbs hhll => Sys2Proof.Machine.execIncAbs hhll s
  | .sbcLong hhmmll => Sys2Proof.Machine.execSbcLong hhmmll s
  | .beq ll => Sys2Proof.Machine.execBeq ll s
  | .sbcDirIndY ll => Sys2Proof.Machine.execSbcDirIndY ll s
  | .sbcDirInd ll => Sys2Proof.Machine.execSbcDirInd ll s
  | .sbcStkSIndY ll => Sys2Proof.Machine.execSbcStkSIndY ll s
  | .pea hhll => Sys2Proof.Machine.execPea hhll s
  | .sbcDirX ll => Sys2Proof.Machine.execSbcDirX ll s
  | .incDirX ll => Sys2Proof.Machine.execIncDirX ll s
  | .sbcDirLongY ll => Sys2Proof.Machine.execSbcDirLongY ll s
  | .sed => Sys2Proof.Machine.execSed s
  | .sbcAbsY hhll => Sys2Proof.Machine.execSbcAbsY hhll s
  | .plx => Sys2Proof.Machine.execPlx s
  | .xce => Sys2Proof.Machine.execXce s
  | .jsrAbsXInd hhll => Sys2Proof.Machine.execJsrAbsXInd hhll s
  | .sbcAbsX hhll => Sys2Proof.Machine.execSbcAbsX hhll s
  | .incAbsX hhll => Sys2Proof.Machine.execIncAbsX hhll s
  | .sbcLongX hhmmll => Sys2Proof.Machine.execSbcLongX hhmmll s

end Sys2Proof.Machine
end

