-- ==== Sys2Proof/WellFormed.lean ====
section
/-! DEFINITION. Which instructions a program can hold under given width flags: immediate data of 8 bits has no high byte
(`30_encoding.md` R93). Every other operand's width is its type's. -/

namespace Sys2Proof

/-- Immediate data fits the width that `flag` (`m` or `x`) selects: 8 bits when it is 1. -/
def immFits (flag : Bool) (imm : Word) : Bool := !flag || decide (hi8 imm = 0x00#8)

/-- Well formed under the flags `m` and `x` (R93, R94). -/
def Instr.wf (m x : Bool) : Instr → Bool
  | .brk => true
  | .oraDirXInd _ => true
  | .cop _ => true
  | .oraStkS _ => true
  | .tsbDir _ => true
  | .oraDir _ => true
  | .aslDir _ => true
  | .oraDirLong _ => true
  | .php => true
  | .oraImm imm => immFits m imm
  | .aslAcc => true
  | .phd => true
  | .tsbAbs _ => true
  | .oraAbs _ => true
  | .aslAbs _ => true
  | .oraLong _ => true
  | .bpl _ => true
  | .oraDirIndY _ => true
  | .oraDirInd _ => true
  | .oraStkSIndY _ => true
  | .trbDir _ => true
  | .oraDirX _ => true
  | .aslDirX _ => true
  | .oraDirLongY _ => true
  | .clc => true
  | .oraAbsY _ => true
  | .incAcc => true
  | .tcs => true
  | .trbAbs _ => true
  | .oraAbsX _ => true
  | .aslAbsX _ => true
  | .oraLongX _ => true
  | .jsrAbs _ => true
  | .andDirXInd _ => true
  | .jsl _ => true
  | .andStkS _ => true
  | .bitDir _ => true
  | .andDir _ => true
  | .rolDir _ => true
  | .andDirLong _ => true
  | .plp => true
  | .andImm imm => immFits m imm
  | .rolAcc => true
  | .pld => true
  | .bitAbs _ => true
  | .andAbs _ => true
  | .rolAbs _ => true
  | .andLong _ => true
  | .bmi _ => true
  | .andDirIndY _ => true
  | .andDirInd _ => true
  | .andStkSIndY _ => true
  | .bitDirX _ => true
  | .andDirX _ => true
  | .rolDirX _ => true
  | .andDirLongY _ => true
  | .sec => true
  | .andAbsY _ => true
  | .decAcc => true
  | .tsc => true
  | .bitAbsX _ => true
  | .andAbsX _ => true
  | .rolAbsX _ => true
  | .andLongX _ => true
  | .rti => true
  | .eorDirXInd _ => true
  | .wdm _ => true
  | .eorStkS _ => true
  | .mvp _ _ => true
  | .eorDir _ => true
  | .lsrDir _ => true
  | .eorDirLong _ => true
  | .pha => true
  | .eorImm imm => immFits m imm
  | .lsrAcc => true
  | .phk => true
  | .jmpAbs _ => true
  | .eorAbs _ => true
  | .lsrAbs _ => true
  | .eorLong _ => true
  | .bvc _ => true
  | .eorDirIndY _ => true
  | .eorDirInd _ => true
  | .eorStkSIndY _ => true
  | .mvn _ _ => true
  | .eorDirX _ => true
  | .lsrDirX _ => true
  | .eorDirLongY _ => true
  | .cli => true
  | .eorAbsY _ => true
  | .phy => true
  | .tcd => true
  | .jmpLong _ => true
  | .eorAbsX _ => true
  | .lsrAbsX _ => true
  | .eorLongX _ => true
  | .rts => true
  | .adcDirXInd _ => true
  | .per _ => true
  | .adcStkS _ => true
  | .stzDir _ => true
  | .adcDir _ => true
  | .rorDir _ => true
  | .adcDirLong _ => true
  | .pla => true
  | .adcImm imm => immFits m imm
  | .rorAcc => true
  | .rtl => true
  | .jmpAbsInd _ => true
  | .adcAbs _ => true
  | .rorAbs _ => true
  | .adcLong _ => true
  | .bvs _ => true
  | .adcDirIndY _ => true
  | .adcDirInd _ => true
  | .adcStkSIndY _ => true
  | .stzDirX _ => true
  | .adcDirX _ => true
  | .rorDirX _ => true
  | .adcDirLongY _ => true
  | .sei => true
  | .adcAbsY _ => true
  | .ply => true
  | .tdc => true
  | .jmpAbsXInd _ => true
  | .adcAbsX _ => true
  | .rorAbsX _ => true
  | .adcLongX _ => true
  | .bra _ => true
  | .staDirXInd _ => true
  | .brl _ => true
  | .staStkS _ => true
  | .styDir _ => true
  | .staDir _ => true
  | .stxDir _ => true
  | .staDirLong _ => true
  | .dey => true
  | .bitImm imm => immFits m imm
  | .txa => true
  | .phb => true
  | .styAbs _ => true
  | .staAbs _ => true
  | .stxAbs _ => true
  | .staLong _ => true
  | .bcc _ => true
  | .staDirIndY _ => true
  | .staDirInd _ => true
  | .staStkSIndY _ => true
  | .styDirX _ => true
  | .staDirX _ => true
  | .stxDirY _ => true
  | .staDirLongY _ => true
  | .tya => true
  | .staAbsY _ => true
  | .txs => true
  | .txy => true
  | .stzAbs _ => true
  | .staAbsX _ => true
  | .stzAbsX _ => true
  | .staLongX _ => true
  | .ldyImm imm => immFits x imm
  | .ldaDirXInd _ => true
  | .ldxImm imm => immFits x imm
  | .ldaStkS _ => true
  | .ldyDir _ => true
  | .ldaDir _ => true
  | .ldxDir _ => true
  | .ldaDirLong _ => true
  | .tay => true
  | .ldaImm imm => immFits m imm
  | .tax => true
  | .plb => true
  | .ldyAbs _ => true
  | .ldaAbs _ => true
  | .ldxAbs _ => true
  | .ldaLong _ => true
  | .bcs _ => true
  | .ldaDirIndY _ => true
  | .ldaDirInd _ => true
  | .ldaStkSIndY _ => true
  | .ldyDirX _ => true
  | .ldaDirX _ => true
  | .ldxDirY _ => true
  | .ldaDirLongY _ => true
  | .clv => true
  | .ldaAbsY _ => true
  | .tsx => true
  | .tyx => true
  | .ldyAbsX _ => true
  | .ldaAbsX _ => true
  | .ldxAbsY _ => true
  | .ldaLongX _ => true
  | .cpyImm imm => immFits x imm
  | .cmpDirXInd _ => true
  | .rep _ => true
  | .cmpStkS _ => true
  | .cpyDir _ => true
  | .cmpDir _ => true
  | .decDir _ => true
  | .cmpDirLong _ => true
  | .iny => true
  | .cmpImm imm => immFits m imm
  | .dex => true
  | .wai => true
  | .cpyAbs _ => true
  | .cmpAbs _ => true
  | .decAbs _ => true
  | .cmpLong _ => true
  | .bne _ => true
  | .cmpDirIndY _ => true
  | .cmpDirInd _ => true
  | .cmpStkSIndY _ => true
  | .pei _ => true
  | .cmpDirX _ => true
  | .decDirX _ => true
  | .cmpDirLongY _ => true
  | .cld => true
  | .cmpAbsY _ => true
  | .phx => true
  | .stp => true
  | .jmpAbsLong _ => true
  | .cmpAbsX _ => true
  | .decAbsX _ => true
  | .cmpLongX _ => true
  | .cpxImm imm => immFits x imm
  | .sbcDirXInd _ => true
  | .sep _ => true
  | .sbcStkS _ => true
  | .cpxDir _ => true
  | .sbcDir _ => true
  | .incDir _ => true
  | .sbcDirLong _ => true
  | .inx => true
  | .sbcImm imm => immFits m imm
  | .nop => true
  | .xba => true
  | .cpxAbs _ => true
  | .sbcAbs _ => true
  | .incAbs _ => true
  | .sbcLong _ => true
  | .beq _ => true
  | .sbcDirIndY _ => true
  | .sbcDirInd _ => true
  | .sbcStkSIndY _ => true
  | .pea _ => true
  | .sbcDirX _ => true
  | .incDirX _ => true
  | .sbcDirLongY _ => true
  | .sed => true
  | .sbcAbsY _ => true
  | .plx => true
  | .xce => true
  | .jsrAbsXInd _ => true
  | .sbcAbsX _ => true
  | .incAbsX _ => true
  | .sbcLongX _ => true

end Sys2Proof
end

