-- ==== Sys2Proof/Decode.lean ====
section
/-! DEFINITION. The decoder and the encoder (`30_encoding.md` R90 to R97). The opcode byte alone selects mnemonic and mode,
and only `m` and `x` change a length (R94). The opcode map is R96's 16 by 16 grid: one function for each high digit. -/

namespace Sys2Proof

/-! ### Lengths (R91, R93) -/

/-- The bytes of immediate data: 2 when the width flag is 0, 1 when it is 1 (R93). -/
def immByteCount (flag : Bool) : Nat := if flag then 1 else 2

/-- The length of a mode in bytes, opcode included (R91). Immediates are the 8-bit case here; `instrLen` knows the others. -/
def modeLen : Mode → Nat
  | .imp => 1
  | .acc => 1
  | .imm => 2
  | .dir => 2
  | .dirX => 2
  | .dirY => 2
  | .dirInd => 2
  | .dirLong => 2
  | .dirXInd => 2
  | .dirIndY => 2
  | .dirLongY => 2
  | .stkS => 2
  | .stkSIndY => 2
  | .rel8 => 2
  | .abs => 3
  | .absX => 3
  | .absY => 3
  | .absInd => 3
  | .absLong => 3
  | .absXInd => 3
  | .rel16 => 3
  | .srcDest => 3
  | .long => 4
  | .longX => 4

/-- The addressing mode of an instruction (R96). -/
def instrMode : Instr → Mode
  | .brk => .imp
  | .oraDirXInd _ => .dirXInd
  | .cop _ => .imm
  | .oraStkS _ => .stkS
  | .tsbDir _ => .dir
  | .oraDir _ => .dir
  | .aslDir _ => .dir
  | .oraDirLong _ => .dirLong
  | .php => .imp
  | .oraImm _ => .imm
  | .aslAcc => .acc
  | .phd => .imp
  | .tsbAbs _ => .abs
  | .oraAbs _ => .abs
  | .aslAbs _ => .abs
  | .oraLong _ => .long
  | .bpl _ => .rel8
  | .oraDirIndY _ => .dirIndY
  | .oraDirInd _ => .dirInd
  | .oraStkSIndY _ => .stkSIndY
  | .trbDir _ => .dir
  | .oraDirX _ => .dirX
  | .aslDirX _ => .dirX
  | .oraDirLongY _ => .dirLongY
  | .clc => .imp
  | .oraAbsY _ => .absY
  | .incAcc => .acc
  | .tcs => .imp
  | .trbAbs _ => .abs
  | .oraAbsX _ => .absX
  | .aslAbsX _ => .absX
  | .oraLongX _ => .longX
  | .jsrAbs _ => .abs
  | .andDirXInd _ => .dirXInd
  | .jsl _ => .long
  | .andStkS _ => .stkS
  | .bitDir _ => .dir
  | .andDir _ => .dir
  | .rolDir _ => .dir
  | .andDirLong _ => .dirLong
  | .plp => .imp
  | .andImm _ => .imm
  | .rolAcc => .acc
  | .pld => .imp
  | .bitAbs _ => .abs
  | .andAbs _ => .abs
  | .rolAbs _ => .abs
  | .andLong _ => .long
  | .bmi _ => .rel8
  | .andDirIndY _ => .dirIndY
  | .andDirInd _ => .dirInd
  | .andStkSIndY _ => .stkSIndY
  | .bitDirX _ => .dirX
  | .andDirX _ => .dirX
  | .rolDirX _ => .dirX
  | .andDirLongY _ => .dirLongY
  | .sec => .imp
  | .andAbsY _ => .absY
  | .decAcc => .acc
  | .tsc => .imp
  | .bitAbsX _ => .absX
  | .andAbsX _ => .absX
  | .rolAbsX _ => .absX
  | .andLongX _ => .longX
  | .rti => .imp
  | .eorDirXInd _ => .dirXInd
  | .wdm _ => .imm
  | .eorStkS _ => .stkS
  | .mvp _ _ => .srcDest
  | .eorDir _ => .dir
  | .lsrDir _ => .dir
  | .eorDirLong _ => .dirLong
  | .pha => .imp
  | .eorImm _ => .imm
  | .lsrAcc => .acc
  | .phk => .imp
  | .jmpAbs _ => .abs
  | .eorAbs _ => .abs
  | .lsrAbs _ => .abs
  | .eorLong _ => .long
  | .bvc _ => .rel8
  | .eorDirIndY _ => .dirIndY
  | .eorDirInd _ => .dirInd
  | .eorStkSIndY _ => .stkSIndY
  | .mvn _ _ => .srcDest
  | .eorDirX _ => .dirX
  | .lsrDirX _ => .dirX
  | .eorDirLongY _ => .dirLongY
  | .cli => .imp
  | .eorAbsY _ => .absY
  | .phy => .imp
  | .tcd => .imp
  | .jmpLong _ => .long
  | .eorAbsX _ => .absX
  | .lsrAbsX _ => .absX
  | .eorLongX _ => .longX
  | .rts => .imp
  | .adcDirXInd _ => .dirXInd
  | .per _ => .imm
  | .adcStkS _ => .stkS
  | .stzDir _ => .dir
  | .adcDir _ => .dir
  | .rorDir _ => .dir
  | .adcDirLong _ => .dirLong
  | .pla => .imp
  | .adcImm _ => .imm
  | .rorAcc => .acc
  | .rtl => .imp
  | .jmpAbsInd _ => .absInd
  | .adcAbs _ => .abs
  | .rorAbs _ => .abs
  | .adcLong _ => .long
  | .bvs _ => .rel8
  | .adcDirIndY _ => .dirIndY
  | .adcDirInd _ => .dirInd
  | .adcStkSIndY _ => .stkSIndY
  | .stzDirX _ => .dirX
  | .adcDirX _ => .dirX
  | .rorDirX _ => .dirX
  | .adcDirLongY _ => .dirLongY
  | .sei => .imp
  | .adcAbsY _ => .absY
  | .ply => .imp
  | .tdc => .imp
  | .jmpAbsXInd _ => .absXInd
  | .adcAbsX _ => .absX
  | .rorAbsX _ => .absX
  | .adcLongX _ => .longX
  | .bra _ => .rel8
  | .staDirXInd _ => .dirXInd
  | .brl _ => .rel16
  | .staStkS _ => .stkS
  | .styDir _ => .dir
  | .staDir _ => .dir
  | .stxDir _ => .dir
  | .staDirLong _ => .dirLong
  | .dey => .imp
  | .bitImm _ => .imm
  | .txa => .imp
  | .phb => .imp
  | .styAbs _ => .abs
  | .staAbs _ => .abs
  | .stxAbs _ => .abs
  | .staLong _ => .long
  | .bcc _ => .rel8
  | .staDirIndY _ => .dirIndY
  | .staDirInd _ => .dirInd
  | .staStkSIndY _ => .stkSIndY
  | .styDirX _ => .dirX
  | .staDirX _ => .dirX
  | .stxDirY _ => .dirY
  | .staDirLongY _ => .dirLongY
  | .tya => .imp
  | .staAbsY _ => .absY
  | .txs => .imp
  | .txy => .imp
  | .stzAbs _ => .abs
  | .staAbsX _ => .absX
  | .stzAbsX _ => .absX
  | .staLongX _ => .longX
  | .ldyImm _ => .imm
  | .ldaDirXInd _ => .dirXInd
  | .ldxImm _ => .imm
  | .ldaStkS _ => .stkS
  | .ldyDir _ => .dir
  | .ldaDir _ => .dir
  | .ldxDir _ => .dir
  | .ldaDirLong _ => .dirLong
  | .tay => .imp
  | .ldaImm _ => .imm
  | .tax => .imp
  | .plb => .imp
  | .ldyAbs _ => .abs
  | .ldaAbs _ => .abs
  | .ldxAbs _ => .abs
  | .ldaLong _ => .long
  | .bcs _ => .rel8
  | .ldaDirIndY _ => .dirIndY
  | .ldaDirInd _ => .dirInd
  | .ldaStkSIndY _ => .stkSIndY
  | .ldyDirX _ => .dirX
  | .ldaDirX _ => .dirX
  | .ldxDirY _ => .dirY
  | .ldaDirLongY _ => .dirLongY
  | .clv => .imp
  | .ldaAbsY _ => .absY
  | .tsx => .imp
  | .tyx => .imp
  | .ldyAbsX _ => .absX
  | .ldaAbsX _ => .absX
  | .ldxAbsY _ => .absY
  | .ldaLongX _ => .longX
  | .cpyImm _ => .imm
  | .cmpDirXInd _ => .dirXInd
  | .rep _ => .imm
  | .cmpStkS _ => .stkS
  | .cpyDir _ => .dir
  | .cmpDir _ => .dir
  | .decDir _ => .dir
  | .cmpDirLong _ => .dirLong
  | .iny => .imp
  | .cmpImm _ => .imm
  | .dex => .imp
  | .wai => .imp
  | .cpyAbs _ => .abs
  | .cmpAbs _ => .abs
  | .decAbs _ => .abs
  | .cmpLong _ => .long
  | .bne _ => .rel8
  | .cmpDirIndY _ => .dirIndY
  | .cmpDirInd _ => .dirInd
  | .cmpStkSIndY _ => .stkSIndY
  | .pei _ => .dir
  | .cmpDirX _ => .dirX
  | .decDirX _ => .dirX
  | .cmpDirLongY _ => .dirLongY
  | .cld => .imp
  | .cmpAbsY _ => .absY
  | .phx => .imp
  | .stp => .imp
  | .jmpAbsLong _ => .absLong
  | .cmpAbsX _ => .absX
  | .decAbsX _ => .absX
  | .cmpLongX _ => .longX
  | .cpxImm _ => .imm
  | .sbcDirXInd _ => .dirXInd
  | .sep _ => .imm
  | .sbcStkS _ => .stkS
  | .cpxDir _ => .dir
  | .sbcDir _ => .dir
  | .incDir _ => .dir
  | .sbcDirLong _ => .dirLong
  | .inx => .imp
  | .sbcImm _ => .imm
  | .nop => .imp
  | .xba => .imp
  | .cpxAbs _ => .abs
  | .sbcAbs _ => .abs
  | .incAbs _ => .abs
  | .sbcLong _ => .long
  | .beq _ => .rel8
  | .sbcDirIndY _ => .dirIndY
  | .sbcDirInd _ => .dirInd
  | .sbcStkSIndY _ => .stkSIndY
  | .pea _ => .imm
  | .sbcDirX _ => .dirX
  | .incDirX _ => .dirX
  | .sbcDirLongY _ => .dirLongY
  | .sed => .imp
  | .sbcAbsY _ => .absY
  | .plx => .imp
  | .xce => .imp
  | .jsrAbsXInd _ => .absXInd
  | .sbcAbsX _ => .absX
  | .incAbsX _ => .absX
  | .sbcLongX _ => .longX

/-- Which immediates follow a width flag, and which are always 16 bits (R93). -/
inductive ImmCase where
  | followsM
  | followsX
  | fixed8
  | fixed16
  deriving DecidableEq, Repr

/-- The case of R93 an immediate instruction falls under; `none` for every other mode. -/
def immCase : Instr → Option ImmCase
  | .brk => none
  | .oraDirXInd _ => none
  | .cop _ => some .fixed8
  | .oraStkS _ => none
  | .tsbDir _ => none
  | .oraDir _ => none
  | .aslDir _ => none
  | .oraDirLong _ => none
  | .php => none
  | .oraImm _ => some .followsM
  | .aslAcc => none
  | .phd => none
  | .tsbAbs _ => none
  | .oraAbs _ => none
  | .aslAbs _ => none
  | .oraLong _ => none
  | .bpl _ => none
  | .oraDirIndY _ => none
  | .oraDirInd _ => none
  | .oraStkSIndY _ => none
  | .trbDir _ => none
  | .oraDirX _ => none
  | .aslDirX _ => none
  | .oraDirLongY _ => none
  | .clc => none
  | .oraAbsY _ => none
  | .incAcc => none
  | .tcs => none
  | .trbAbs _ => none
  | .oraAbsX _ => none
  | .aslAbsX _ => none
  | .oraLongX _ => none
  | .jsrAbs _ => none
  | .andDirXInd _ => none
  | .jsl _ => none
  | .andStkS _ => none
  | .bitDir _ => none
  | .andDir _ => none
  | .rolDir _ => none
  | .andDirLong _ => none
  | .plp => none
  | .andImm _ => some .followsM
  | .rolAcc => none
  | .pld => none
  | .bitAbs _ => none
  | .andAbs _ => none
  | .rolAbs _ => none
  | .andLong _ => none
  | .bmi _ => none
  | .andDirIndY _ => none
  | .andDirInd _ => none
  | .andStkSIndY _ => none
  | .bitDirX _ => none
  | .andDirX _ => none
  | .rolDirX _ => none
  | .andDirLongY _ => none
  | .sec => none
  | .andAbsY _ => none
  | .decAcc => none
  | .tsc => none
  | .bitAbsX _ => none
  | .andAbsX _ => none
  | .rolAbsX _ => none
  | .andLongX _ => none
  | .rti => none
  | .eorDirXInd _ => none
  | .wdm _ => some .fixed8
  | .eorStkS _ => none
  | .mvp _ _ => none
  | .eorDir _ => none
  | .lsrDir _ => none
  | .eorDirLong _ => none
  | .pha => none
  | .eorImm _ => some .followsM
  | .lsrAcc => none
  | .phk => none
  | .jmpAbs _ => none
  | .eorAbs _ => none
  | .lsrAbs _ => none
  | .eorLong _ => none
  | .bvc _ => none
  | .eorDirIndY _ => none
  | .eorDirInd _ => none
  | .eorStkSIndY _ => none
  | .mvn _ _ => none
  | .eorDirX _ => none
  | .lsrDirX _ => none
  | .eorDirLongY _ => none
  | .cli => none
  | .eorAbsY _ => none
  | .phy => none
  | .tcd => none
  | .jmpLong _ => none
  | .eorAbsX _ => none
  | .lsrAbsX _ => none
  | .eorLongX _ => none
  | .rts => none
  | .adcDirXInd _ => none
  | .per _ => some .fixed16
  | .adcStkS _ => none
  | .stzDir _ => none
  | .adcDir _ => none
  | .rorDir _ => none
  | .adcDirLong _ => none
  | .pla => none
  | .adcImm _ => some .followsM
  | .rorAcc => none
  | .rtl => none
  | .jmpAbsInd _ => none
  | .adcAbs _ => none
  | .rorAbs _ => none
  | .adcLong _ => none
  | .bvs _ => none
  | .adcDirIndY _ => none
  | .adcDirInd _ => none
  | .adcStkSIndY _ => none
  | .stzDirX _ => none
  | .adcDirX _ => none
  | .rorDirX _ => none
  | .adcDirLongY _ => none
  | .sei => none
  | .adcAbsY _ => none
  | .ply => none
  | .tdc => none
  | .jmpAbsXInd _ => none
  | .adcAbsX _ => none
  | .rorAbsX _ => none
  | .adcLongX _ => none
  | .bra _ => none
  | .staDirXInd _ => none
  | .brl _ => none
  | .staStkS _ => none
  | .styDir _ => none
  | .staDir _ => none
  | .stxDir _ => none
  | .staDirLong _ => none
  | .dey => none
  | .bitImm _ => some .followsM
  | .txa => none
  | .phb => none
  | .styAbs _ => none
  | .staAbs _ => none
  | .stxAbs _ => none
  | .staLong _ => none
  | .bcc _ => none
  | .staDirIndY _ => none
  | .staDirInd _ => none
  | .staStkSIndY _ => none
  | .styDirX _ => none
  | .staDirX _ => none
  | .stxDirY _ => none
  | .staDirLongY _ => none
  | .tya => none
  | .staAbsY _ => none
  | .txs => none
  | .txy => none
  | .stzAbs _ => none
  | .staAbsX _ => none
  | .stzAbsX _ => none
  | .staLongX _ => none
  | .ldyImm _ => some .followsX
  | .ldaDirXInd _ => none
  | .ldxImm _ => some .followsX
  | .ldaStkS _ => none
  | .ldyDir _ => none
  | .ldaDir _ => none
  | .ldxDir _ => none
  | .ldaDirLong _ => none
  | .tay => none
  | .ldaImm _ => some .followsM
  | .tax => none
  | .plb => none
  | .ldyAbs _ => none
  | .ldaAbs _ => none
  | .ldxAbs _ => none
  | .ldaLong _ => none
  | .bcs _ => none
  | .ldaDirIndY _ => none
  | .ldaDirInd _ => none
  | .ldaStkSIndY _ => none
  | .ldyDirX _ => none
  | .ldaDirX _ => none
  | .ldxDirY _ => none
  | .ldaDirLongY _ => none
  | .clv => none
  | .ldaAbsY _ => none
  | .tsx => none
  | .tyx => none
  | .ldyAbsX _ => none
  | .ldaAbsX _ => none
  | .ldxAbsY _ => none
  | .ldaLongX _ => none
  | .cpyImm _ => some .followsX
  | .cmpDirXInd _ => none
  | .rep _ => some .fixed8
  | .cmpStkS _ => none
  | .cpyDir _ => none
  | .cmpDir _ => none
  | .decDir _ => none
  | .cmpDirLong _ => none
  | .iny => none
  | .cmpImm _ => some .followsM
  | .dex => none
  | .wai => none
  | .cpyAbs _ => none
  | .cmpAbs _ => none
  | .decAbs _ => none
  | .cmpLong _ => none
  | .bne _ => none
  | .cmpDirIndY _ => none
  | .cmpDirInd _ => none
  | .cmpStkSIndY _ => none
  | .pei _ => none
  | .cmpDirX _ => none
  | .decDirX _ => none
  | .cmpDirLongY _ => none
  | .cld => none
  | .cmpAbsY _ => none
  | .phx => none
  | .stp => none
  | .jmpAbsLong _ => none
  | .cmpAbsX _ => none
  | .decAbsX _ => none
  | .cmpLongX _ => none
  | .cpxImm _ => some .followsX
  | .sbcDirXInd _ => none
  | .sep _ => some .fixed8
  | .sbcStkS _ => none
  | .cpxDir _ => none
  | .sbcDir _ => none
  | .incDir _ => none
  | .sbcDirLong _ => none
  | .inx => none
  | .sbcImm _ => some .followsM
  | .nop => none
  | .xba => none
  | .cpxAbs _ => none
  | .sbcAbs _ => none
  | .incAbs _ => none
  | .sbcLong _ => none
  | .beq _ => none
  | .sbcDirIndY _ => none
  | .sbcDirInd _ => none
  | .sbcStkSIndY _ => none
  | .pea _ => some .fixed16
  | .sbcDirX _ => none
  | .incDirX _ => none
  | .sbcDirLongY _ => none
  | .sed => none
  | .sbcAbsY _ => none
  | .plx => none
  | .xce => none
  | .jsrAbsXInd _ => none
  | .sbcAbsX _ => none
  | .incAbsX _ => none
  | .sbcLongX _ => none

/-- The length in bytes under the flags `m` and `x` (R91, R93). -/
def instrLen (m x : Bool) (i : Instr) : Nat :=
  match immCase i with
  | some .followsM => 1 + immByteCount m
  | some .followsX => 1 + immByteCount x
  | some .fixed8 => 2
  | some .fixed16 => 3
  | none => modeLen (instrMode i)

/-! ### Decoding -/

/-- The operand of an immediate whose width follows `flag`: byte 2 belongs to it only when the flag is 0 (R93). -/
def immOperand (flag : Bool) (b1 b2 : Byte) : Word := if flag then zext16 b1 else word b2 b1

/-- Opcodes `$00` to `$0F` by their low digit (R96). -/
def decodeRow0 (m : Bool) (b1 b2 b3 : Byte) : Nat → Instr
  | 0 => .brk
  | 1 => .oraDirXInd b1
  | 2 => .cop b1
  | 3 => .oraStkS b1
  | 4 => .tsbDir b1
  | 5 => .oraDir b1
  | 6 => .aslDir b1
  | 7 => .oraDirLong b1
  | 8 => .php
  | 9 => .oraImm (immOperand m b1 b2)
  | 10 => .aslAcc
  | 11 => .phd
  | 12 => .tsbAbs (word b2 b1)
  | 13 => .oraAbs (word b2 b1)
  | 14 => .aslAbs (word b2 b1)
  | _ => .oraLong (addr b3 (word b2 b1))

/-- Opcodes `$10` to `$1F` by their low digit (R96). -/
def decodeRow1 (b1 b2 b3 : Byte) : Nat → Instr
  | 0 => .bpl b1
  | 1 => .oraDirIndY b1
  | 2 => .oraDirInd b1
  | 3 => .oraStkSIndY b1
  | 4 => .trbDir b1
  | 5 => .oraDirX b1
  | 6 => .aslDirX b1
  | 7 => .oraDirLongY b1
  | 8 => .clc
  | 9 => .oraAbsY (word b2 b1)
  | 10 => .incAcc
  | 11 => .tcs
  | 12 => .trbAbs (word b2 b1)
  | 13 => .oraAbsX (word b2 b1)
  | 14 => .aslAbsX (word b2 b1)
  | _ => .oraLongX (addr b3 (word b2 b1))

/-- Opcodes `$20` to `$2F` by their low digit (R96). -/
def decodeRow2 (m : Bool) (b1 b2 b3 : Byte) : Nat → Instr
  | 0 => .jsrAbs (word b2 b1)
  | 1 => .andDirXInd b1
  | 2 => .jsl (addr b3 (word b2 b1))
  | 3 => .andStkS b1
  | 4 => .bitDir b1
  | 5 => .andDir b1
  | 6 => .rolDir b1
  | 7 => .andDirLong b1
  | 8 => .plp
  | 9 => .andImm (immOperand m b1 b2)
  | 10 => .rolAcc
  | 11 => .pld
  | 12 => .bitAbs (word b2 b1)
  | 13 => .andAbs (word b2 b1)
  | 14 => .rolAbs (word b2 b1)
  | _ => .andLong (addr b3 (word b2 b1))

/-- Opcodes `$30` to `$3F` by their low digit (R96). -/
def decodeRow3 (b1 b2 b3 : Byte) : Nat → Instr
  | 0 => .bmi b1
  | 1 => .andDirIndY b1
  | 2 => .andDirInd b1
  | 3 => .andStkSIndY b1
  | 4 => .bitDirX b1
  | 5 => .andDirX b1
  | 6 => .rolDirX b1
  | 7 => .andDirLongY b1
  | 8 => .sec
  | 9 => .andAbsY (word b2 b1)
  | 10 => .decAcc
  | 11 => .tsc
  | 12 => .bitAbsX (word b2 b1)
  | 13 => .andAbsX (word b2 b1)
  | 14 => .rolAbsX (word b2 b1)
  | _ => .andLongX (addr b3 (word b2 b1))

/-- Opcodes `$40` to `$4F` by their low digit (R96). -/
def decodeRow4 (m : Bool) (b1 b2 b3 : Byte) : Nat → Instr
  | 0 => .rti
  | 1 => .eorDirXInd b1
  | 2 => .wdm b1
  | 3 => .eorStkS b1
  | 4 => .mvp b1 b2
  | 5 => .eorDir b1
  | 6 => .lsrDir b1
  | 7 => .eorDirLong b1
  | 8 => .pha
  | 9 => .eorImm (immOperand m b1 b2)
  | 10 => .lsrAcc
  | 11 => .phk
  | 12 => .jmpAbs (word b2 b1)
  | 13 => .eorAbs (word b2 b1)
  | 14 => .lsrAbs (word b2 b1)
  | _ => .eorLong (addr b3 (word b2 b1))

/-- Opcodes `$50` to `$5F` by their low digit (R96). -/
def decodeRow5 (b1 b2 b3 : Byte) : Nat → Instr
  | 0 => .bvc b1
  | 1 => .eorDirIndY b1
  | 2 => .eorDirInd b1
  | 3 => .eorStkSIndY b1
  | 4 => .mvn b1 b2
  | 5 => .eorDirX b1
  | 6 => .lsrDirX b1
  | 7 => .eorDirLongY b1
  | 8 => .cli
  | 9 => .eorAbsY (word b2 b1)
  | 10 => .phy
  | 11 => .tcd
  | 12 => .jmpLong (addr b3 (word b2 b1))
  | 13 => .eorAbsX (word b2 b1)
  | 14 => .lsrAbsX (word b2 b1)
  | _ => .eorLongX (addr b3 (word b2 b1))

/-- Opcodes `$60` to `$6F` by their low digit (R96). -/
def decodeRow6 (m : Bool) (b1 b2 b3 : Byte) : Nat → Instr
  | 0 => .rts
  | 1 => .adcDirXInd b1
  | 2 => .per (word b2 b1)
  | 3 => .adcStkS b1
  | 4 => .stzDir b1
  | 5 => .adcDir b1
  | 6 => .rorDir b1
  | 7 => .adcDirLong b1
  | 8 => .pla
  | 9 => .adcImm (immOperand m b1 b2)
  | 10 => .rorAcc
  | 11 => .rtl
  | 12 => .jmpAbsInd (word b2 b1)
  | 13 => .adcAbs (word b2 b1)
  | 14 => .rorAbs (word b2 b1)
  | _ => .adcLong (addr b3 (word b2 b1))

/-- Opcodes `$70` to `$7F` by their low digit (R96). -/
def decodeRow7 (b1 b2 b3 : Byte) : Nat → Instr
  | 0 => .bvs b1
  | 1 => .adcDirIndY b1
  | 2 => .adcDirInd b1
  | 3 => .adcStkSIndY b1
  | 4 => .stzDirX b1
  | 5 => .adcDirX b1
  | 6 => .rorDirX b1
  | 7 => .adcDirLongY b1
  | 8 => .sei
  | 9 => .adcAbsY (word b2 b1)
  | 10 => .ply
  | 11 => .tdc
  | 12 => .jmpAbsXInd (word b2 b1)
  | 13 => .adcAbsX (word b2 b1)
  | 14 => .rorAbsX (word b2 b1)
  | _ => .adcLongX (addr b3 (word b2 b1))

/-- Opcodes `$80` to `$8F` by their low digit (R96). -/
def decodeRow8 (m : Bool) (b1 b2 b3 : Byte) : Nat → Instr
  | 0 => .bra b1
  | 1 => .staDirXInd b1
  | 2 => .brl (word b2 b1)
  | 3 => .staStkS b1
  | 4 => .styDir b1
  | 5 => .staDir b1
  | 6 => .stxDir b1
  | 7 => .staDirLong b1
  | 8 => .dey
  | 9 => .bitImm (immOperand m b1 b2)
  | 10 => .txa
  | 11 => .phb
  | 12 => .styAbs (word b2 b1)
  | 13 => .staAbs (word b2 b1)
  | 14 => .stxAbs (word b2 b1)
  | _ => .staLong (addr b3 (word b2 b1))

/-- Opcodes `$90` to `$9F` by their low digit (R96). -/
def decodeRow9 (b1 b2 b3 : Byte) : Nat → Instr
  | 0 => .bcc b1
  | 1 => .staDirIndY b1
  | 2 => .staDirInd b1
  | 3 => .staStkSIndY b1
  | 4 => .styDirX b1
  | 5 => .staDirX b1
  | 6 => .stxDirY b1
  | 7 => .staDirLongY b1
  | 8 => .tya
  | 9 => .staAbsY (word b2 b1)
  | 10 => .txs
  | 11 => .txy
  | 12 => .stzAbs (word b2 b1)
  | 13 => .staAbsX (word b2 b1)
  | 14 => .stzAbsX (word b2 b1)
  | _ => .staLongX (addr b3 (word b2 b1))

/-- Opcodes `$A0` to `$AF` by their low digit (R96). -/
def decodeRowA (m x : Bool) (b1 b2 b3 : Byte) : Nat → Instr
  | 0 => .ldyImm (immOperand x b1 b2)
  | 1 => .ldaDirXInd b1
  | 2 => .ldxImm (immOperand x b1 b2)
  | 3 => .ldaStkS b1
  | 4 => .ldyDir b1
  | 5 => .ldaDir b1
  | 6 => .ldxDir b1
  | 7 => .ldaDirLong b1
  | 8 => .tay
  | 9 => .ldaImm (immOperand m b1 b2)
  | 10 => .tax
  | 11 => .plb
  | 12 => .ldyAbs (word b2 b1)
  | 13 => .ldaAbs (word b2 b1)
  | 14 => .ldxAbs (word b2 b1)
  | _ => .ldaLong (addr b3 (word b2 b1))

/-- Opcodes `$B0` to `$BF` by their low digit (R96). -/
def decodeRowB (b1 b2 b3 : Byte) : Nat → Instr
  | 0 => .bcs b1
  | 1 => .ldaDirIndY b1
  | 2 => .ldaDirInd b1
  | 3 => .ldaStkSIndY b1
  | 4 => .ldyDirX b1
  | 5 => .ldaDirX b1
  | 6 => .ldxDirY b1
  | 7 => .ldaDirLongY b1
  | 8 => .clv
  | 9 => .ldaAbsY (word b2 b1)
  | 10 => .tsx
  | 11 => .tyx
  | 12 => .ldyAbsX (word b2 b1)
  | 13 => .ldaAbsX (word b2 b1)
  | 14 => .ldxAbsY (word b2 b1)
  | _ => .ldaLongX (addr b3 (word b2 b1))

/-- Opcodes `$C0` to `$CF` by their low digit (R96). -/
def decodeRowC (m x : Bool) (b1 b2 b3 : Byte) : Nat → Instr
  | 0 => .cpyImm (immOperand x b1 b2)
  | 1 => .cmpDirXInd b1
  | 2 => .rep b1
  | 3 => .cmpStkS b1
  | 4 => .cpyDir b1
  | 5 => .cmpDir b1
  | 6 => .decDir b1
  | 7 => .cmpDirLong b1
  | 8 => .iny
  | 9 => .cmpImm (immOperand m b1 b2)
  | 10 => .dex
  | 11 => .wai
  | 12 => .cpyAbs (word b2 b1)
  | 13 => .cmpAbs (word b2 b1)
  | 14 => .decAbs (word b2 b1)
  | _ => .cmpLong (addr b3 (word b2 b1))

/-- Opcodes `$D0` to `$DF` by their low digit (R96). -/
def decodeRowD (b1 b2 b3 : Byte) : Nat → Instr
  | 0 => .bne b1
  | 1 => .cmpDirIndY b1
  | 2 => .cmpDirInd b1
  | 3 => .cmpStkSIndY b1
  | 4 => .pei b1
  | 5 => .cmpDirX b1
  | 6 => .decDirX b1
  | 7 => .cmpDirLongY b1
  | 8 => .cld
  | 9 => .cmpAbsY (word b2 b1)
  | 10 => .phx
  | 11 => .stp
  | 12 => .jmpAbsLong (word b2 b1)
  | 13 => .cmpAbsX (word b2 b1)
  | 14 => .decAbsX (word b2 b1)
  | _ => .cmpLongX (addr b3 (word b2 b1))

/-- Opcodes `$E0` to `$EF` by their low digit (R96). -/
def decodeRowE (m x : Bool) (b1 b2 b3 : Byte) : Nat → Instr
  | 0 => .cpxImm (immOperand x b1 b2)
  | 1 => .sbcDirXInd b1
  | 2 => .sep b1
  | 3 => .sbcStkS b1
  | 4 => .cpxDir b1
  | 5 => .sbcDir b1
  | 6 => .incDir b1
  | 7 => .sbcDirLong b1
  | 8 => .inx
  | 9 => .sbcImm (immOperand m b1 b2)
  | 10 => .nop
  | 11 => .xba
  | 12 => .cpxAbs (word b2 b1)
  | 13 => .sbcAbs (word b2 b1)
  | 14 => .incAbs (word b2 b1)
  | _ => .sbcLong (addr b3 (word b2 b1))

/-- Opcodes `$F0` to `$FF` by their low digit (R96). -/
def decodeRowF (b1 b2 b3 : Byte) : Nat → Instr
  | 0 => .beq b1
  | 1 => .sbcDirIndY b1
  | 2 => .sbcDirInd b1
  | 3 => .sbcStkSIndY b1
  | 4 => .pea (word b2 b1)
  | 5 => .sbcDirX b1
  | 6 => .incDirX b1
  | 7 => .sbcDirLongY b1
  | 8 => .sed
  | 9 => .sbcAbsY (word b2 b1)
  | 10 => .plx
  | 11 => .xce
  | 12 => .jsrAbsXInd (word b2 b1)
  | 13 => .sbcAbsX (word b2 b1)
  | 14 => .incAbsX (word b2 b1)
  | _ => .sbcLongX (addr b3 (word b2 b1))

/-- The instruction of an opcode byte and the three bytes after it, under the flags `m` and `x` (R92, R94). Total: there is
no illegal opcode (R98). A digit is at most 15, so the last arm of each match is the digit 15. -/
def decodeOpcode (m x : Bool) (op b1 b2 b3 : Byte) : Instr :=
  let low := op.toNat % 16
  match op.toNat / 16 with
  | 0 => decodeRow0 m b1 b2 b3 low
  | 1 => decodeRow1 b1 b2 b3 low
  | 2 => decodeRow2 m b1 b2 b3 low
  | 3 => decodeRow3 b1 b2 b3 low
  | 4 => decodeRow4 m b1 b2 b3 low
  | 5 => decodeRow5 b1 b2 b3 low
  | 6 => decodeRow6 m b1 b2 b3 low
  | 7 => decodeRow7 b1 b2 b3 low
  | 8 => decodeRow8 m b1 b2 b3 low
  | 9 => decodeRow9 b1 b2 b3 low
  | 10 => decodeRowA m x b1 b2 b3 low
  | 11 => decodeRowB b1 b2 b3 low
  | 12 => decodeRowC m x b1 b2 b3 low
  | 13 => decodeRowD b1 b2 b3 low
  | 14 => decodeRowE m x b1 b2 b3 low
  | _ => decodeRowF b1 b2 b3 low

/-- The number of bytes that belong to the instruction of an opcode, the opcode's own among them: the opcode and the flags `m` and `x`
alone decide it (R91, R93, R94), so the operand bytes given here are of no matter. -/
def opcodeLen (m x : Bool) (op : Byte) : Nat := instrLen m x (decodeOpcode m x op 0 0 0)

/-- Why a list of bytes is no instruction. -/
inductive DecodeReject where
  /-- The bytes end before the instruction does. No opcode is illegal (R98), so there is no other reason. Safe. -/
  | truncated
  deriving DecidableEq, Repr

/-- The first instruction of a list of bytes, and the bytes after it. -/
def decode (m x : Bool) : List Byte → Except DecodeReject (Instr × List Byte)
  | [] => .error .truncated
  | op :: rest =>
    let i := decodeOpcode m x op (rest.getD 0 0) (rest.getD 1 0) (rest.getD 2 0)
    if rest.length + 1 < instrLen m x i then .error .truncated
    else .ok (i, rest.drop (instrLen m x i - 1))

/-! ### Encoding -/

/-- The bytes of immediate data, low byte first (R92, R93). -/
def immBytes (flag : Bool) (imm : Word) : List Byte := if flag then [lo8 imm] else [lo8 imm, hi8 imm]

/-- The bytes of an instruction under the flags `m` and `x` (R92, R96, R97). -/
def encode (m x : Bool) : Instr → List Byte
  | .brk => [0x00#8]
  | .oraDirXInd ll => [0x01#8, ll]
  | .cop sig => [0x02#8, sig]
  | .oraStkS ll => [0x03#8, ll]
  | .tsbDir ll => [0x04#8, ll]
  | .oraDir ll => [0x05#8, ll]
  | .aslDir ll => [0x06#8, ll]
  | .oraDirLong ll => [0x07#8, ll]
  | .php => [0x08#8]
  | .oraImm imm => 0x09#8 :: immBytes m imm
  | .aslAcc => [0x0A#8]
  | .phd => [0x0B#8]
  | .tsbAbs hhll => [0x0C#8, lo8 hhll, hi8 hhll]
  | .oraAbs hhll => [0x0D#8, lo8 hhll, hi8 hhll]
  | .aslAbs hhll => [0x0E#8, lo8 hhll, hi8 hhll]
  | .oraLong hhmmll => [0x0F#8, lo8 (offsetOf hhmmll), hi8 (offsetOf hhmmll), bankOf hhmmll]
  | .bpl ll => [0x10#8, ll]
  | .oraDirIndY ll => [0x11#8, ll]
  | .oraDirInd ll => [0x12#8, ll]
  | .oraStkSIndY ll => [0x13#8, ll]
  | .trbDir ll => [0x14#8, ll]
  | .oraDirX ll => [0x15#8, ll]
  | .aslDirX ll => [0x16#8, ll]
  | .oraDirLongY ll => [0x17#8, ll]
  | .clc => [0x18#8]
  | .oraAbsY hhll => [0x19#8, lo8 hhll, hi8 hhll]
  | .incAcc => [0x1A#8]
  | .tcs => [0x1B#8]
  | .trbAbs hhll => [0x1C#8, lo8 hhll, hi8 hhll]
  | .oraAbsX hhll => [0x1D#8, lo8 hhll, hi8 hhll]
  | .aslAbsX hhll => [0x1E#8, lo8 hhll, hi8 hhll]
  | .oraLongX hhmmll => [0x1F#8, lo8 (offsetOf hhmmll), hi8 (offsetOf hhmmll), bankOf hhmmll]
  | .jsrAbs hhll => [0x20#8, lo8 hhll, hi8 hhll]
  | .andDirXInd ll => [0x21#8, ll]
  | .jsl hhmmll => [0x22#8, lo8 (offsetOf hhmmll), hi8 (offsetOf hhmmll), bankOf hhmmll]
  | .andStkS ll => [0x23#8, ll]
  | .bitDir ll => [0x24#8, ll]
  | .andDir ll => [0x25#8, ll]
  | .rolDir ll => [0x26#8, ll]
  | .andDirLong ll => [0x27#8, ll]
  | .plp => [0x28#8]
  | .andImm imm => 0x29#8 :: immBytes m imm
  | .rolAcc => [0x2A#8]
  | .pld => [0x2B#8]
  | .bitAbs hhll => [0x2C#8, lo8 hhll, hi8 hhll]
  | .andAbs hhll => [0x2D#8, lo8 hhll, hi8 hhll]
  | .rolAbs hhll => [0x2E#8, lo8 hhll, hi8 hhll]
  | .andLong hhmmll => [0x2F#8, lo8 (offsetOf hhmmll), hi8 (offsetOf hhmmll), bankOf hhmmll]
  | .bmi ll => [0x30#8, ll]
  | .andDirIndY ll => [0x31#8, ll]
  | .andDirInd ll => [0x32#8, ll]
  | .andStkSIndY ll => [0x33#8, ll]
  | .bitDirX ll => [0x34#8, ll]
  | .andDirX ll => [0x35#8, ll]
  | .rolDirX ll => [0x36#8, ll]
  | .andDirLongY ll => [0x37#8, ll]
  | .sec => [0x38#8]
  | .andAbsY hhll => [0x39#8, lo8 hhll, hi8 hhll]
  | .decAcc => [0x3A#8]
  | .tsc => [0x3B#8]
  | .bitAbsX hhll => [0x3C#8, lo8 hhll, hi8 hhll]
  | .andAbsX hhll => [0x3D#8, lo8 hhll, hi8 hhll]
  | .rolAbsX hhll => [0x3E#8, lo8 hhll, hi8 hhll]
  | .andLongX hhmmll => [0x3F#8, lo8 (offsetOf hhmmll), hi8 (offsetOf hhmmll), bankOf hhmmll]
  | .rti => [0x40#8]
  | .eorDirXInd ll => [0x41#8, ll]
  | .wdm ll => [0x42#8, ll]
  | .eorStkS ll => [0x43#8, ll]
  | .mvp tt ss => [0x44#8, tt, ss]
  | .eorDir ll => [0x45#8, ll]
  | .lsrDir ll => [0x46#8, ll]
  | .eorDirLong ll => [0x47#8, ll]
  | .pha => [0x48#8]
  | .eorImm imm => 0x49#8 :: immBytes m imm
  | .lsrAcc => [0x4A#8]
  | .phk => [0x4B#8]
  | .jmpAbs hhll => [0x4C#8, lo8 hhll, hi8 hhll]
  | .eorAbs hhll => [0x4D#8, lo8 hhll, hi8 hhll]
  | .lsrAbs hhll => [0x4E#8, lo8 hhll, hi8 hhll]
  | .eorLong hhmmll => [0x4F#8, lo8 (offsetOf hhmmll), hi8 (offsetOf hhmmll), bankOf hhmmll]
  | .bvc ll => [0x50#8, ll]
  | .eorDirIndY ll => [0x51#8, ll]
  | .eorDirInd ll => [0x52#8, ll]
  | .eorStkSIndY ll => [0x53#8, ll]
  | .mvn tt ss => [0x54#8, tt, ss]
  | .eorDirX ll => [0x55#8, ll]
  | .lsrDirX ll => [0x56#8, ll]
  | .eorDirLongY ll => [0x57#8, ll]
  | .cli => [0x58#8]
  | .eorAbsY hhll => [0x59#8, lo8 hhll, hi8 hhll]
  | .phy => [0x5A#8]
  | .tcd => [0x5B#8]
  | .jmpLong hhmmll => [0x5C#8, lo8 (offsetOf hhmmll), hi8 (offsetOf hhmmll), bankOf hhmmll]
  | .eorAbsX hhll => [0x5D#8, lo8 hhll, hi8 hhll]
  | .lsrAbsX hhll => [0x5E#8, lo8 hhll, hi8 hhll]
  | .eorLongX hhmmll => [0x5F#8, lo8 (offsetOf hhmmll), hi8 (offsetOf hhmmll), bankOf hhmmll]
  | .rts => [0x60#8]
  | .adcDirXInd ll => [0x61#8, ll]
  | .per hhll => [0x62#8, lo8 hhll, hi8 hhll]
  | .adcStkS ll => [0x63#8, ll]
  | .stzDir ll => [0x64#8, ll]
  | .adcDir ll => [0x65#8, ll]
  | .rorDir ll => [0x66#8, ll]
  | .adcDirLong ll => [0x67#8, ll]
  | .pla => [0x68#8]
  | .adcImm imm => 0x69#8 :: immBytes m imm
  | .rorAcc => [0x6A#8]
  | .rtl => [0x6B#8]
  | .jmpAbsInd hhll => [0x6C#8, lo8 hhll, hi8 hhll]
  | .adcAbs hhll => [0x6D#8, lo8 hhll, hi8 hhll]
  | .rorAbs hhll => [0x6E#8, lo8 hhll, hi8 hhll]
  | .adcLong hhmmll => [0x6F#8, lo8 (offsetOf hhmmll), hi8 (offsetOf hhmmll), bankOf hhmmll]
  | .bvs ll => [0x70#8, ll]
  | .adcDirIndY ll => [0x71#8, ll]
  | .adcDirInd ll => [0x72#8, ll]
  | .adcStkSIndY ll => [0x73#8, ll]
  | .stzDirX ll => [0x74#8, ll]
  | .adcDirX ll => [0x75#8, ll]
  | .rorDirX ll => [0x76#8, ll]
  | .adcDirLongY ll => [0x77#8, ll]
  | .sei => [0x78#8]
  | .adcAbsY hhll => [0x79#8, lo8 hhll, hi8 hhll]
  | .ply => [0x7A#8]
  | .tdc => [0x7B#8]
  | .jmpAbsXInd hhll => [0x7C#8, lo8 hhll, hi8 hhll]
  | .adcAbsX hhll => [0x7D#8, lo8 hhll, hi8 hhll]
  | .rorAbsX hhll => [0x7E#8, lo8 hhll, hi8 hhll]
  | .adcLongX hhmmll => [0x7F#8, lo8 (offsetOf hhmmll), hi8 (offsetOf hhmmll), bankOf hhmmll]
  | .bra ll => [0x80#8, ll]
  | .staDirXInd ll => [0x81#8, ll]
  | .brl hhll => [0x82#8, lo8 hhll, hi8 hhll]
  | .staStkS ll => [0x83#8, ll]
  | .styDir ll => [0x84#8, ll]
  | .staDir ll => [0x85#8, ll]
  | .stxDir ll => [0x86#8, ll]
  | .staDirLong ll => [0x87#8, ll]
  | .dey => [0x88#8]
  | .bitImm imm => 0x89#8 :: immBytes m imm
  | .txa => [0x8A#8]
  | .phb => [0x8B#8]
  | .styAbs hhll => [0x8C#8, lo8 hhll, hi8 hhll]
  | .staAbs hhll => [0x8D#8, lo8 hhll, hi8 hhll]
  | .stxAbs hhll => [0x8E#8, lo8 hhll, hi8 hhll]
  | .staLong hhmmll => [0x8F#8, lo8 (offsetOf hhmmll), hi8 (offsetOf hhmmll), bankOf hhmmll]
  | .bcc ll => [0x90#8, ll]
  | .staDirIndY ll => [0x91#8, ll]
  | .staDirInd ll => [0x92#8, ll]
  | .staStkSIndY ll => [0x93#8, ll]
  | .styDirX ll => [0x94#8, ll]
  | .staDirX ll => [0x95#8, ll]
  | .stxDirY ll => [0x96#8, ll]
  | .staDirLongY ll => [0x97#8, ll]
  | .tya => [0x98#8]
  | .staAbsY hhll => [0x99#8, lo8 hhll, hi8 hhll]
  | .txs => [0x9A#8]
  | .txy => [0x9B#8]
  | .stzAbs hhll => [0x9C#8, lo8 hhll, hi8 hhll]
  | .staAbsX hhll => [0x9D#8, lo8 hhll, hi8 hhll]
  | .stzAbsX hhll => [0x9E#8, lo8 hhll, hi8 hhll]
  | .staLongX hhmmll => [0x9F#8, lo8 (offsetOf hhmmll), hi8 (offsetOf hhmmll), bankOf hhmmll]
  | .ldyImm imm => 0xA0#8 :: immBytes x imm
  | .ldaDirXInd ll => [0xA1#8, ll]
  | .ldxImm imm => 0xA2#8 :: immBytes x imm
  | .ldaStkS ll => [0xA3#8, ll]
  | .ldyDir ll => [0xA4#8, ll]
  | .ldaDir ll => [0xA5#8, ll]
  | .ldxDir ll => [0xA6#8, ll]
  | .ldaDirLong ll => [0xA7#8, ll]
  | .tay => [0xA8#8]
  | .ldaImm imm => 0xA9#8 :: immBytes m imm
  | .tax => [0xAA#8]
  | .plb => [0xAB#8]
  | .ldyAbs hhll => [0xAC#8, lo8 hhll, hi8 hhll]
  | .ldaAbs hhll => [0xAD#8, lo8 hhll, hi8 hhll]
  | .ldxAbs hhll => [0xAE#8, lo8 hhll, hi8 hhll]
  | .ldaLong hhmmll => [0xAF#8, lo8 (offsetOf hhmmll), hi8 (offsetOf hhmmll), bankOf hhmmll]
  | .bcs ll => [0xB0#8, ll]
  | .ldaDirIndY ll => [0xB1#8, ll]
  | .ldaDirInd ll => [0xB2#8, ll]
  | .ldaStkSIndY ll => [0xB3#8, ll]
  | .ldyDirX ll => [0xB4#8, ll]
  | .ldaDirX ll => [0xB5#8, ll]
  | .ldxDirY ll => [0xB6#8, ll]
  | .ldaDirLongY ll => [0xB7#8, ll]
  | .clv => [0xB8#8]
  | .ldaAbsY hhll => [0xB9#8, lo8 hhll, hi8 hhll]
  | .tsx => [0xBA#8]
  | .tyx => [0xBB#8]
  | .ldyAbsX hhll => [0xBC#8, lo8 hhll, hi8 hhll]
  | .ldaAbsX hhll => [0xBD#8, lo8 hhll, hi8 hhll]
  | .ldxAbsY hhll => [0xBE#8, lo8 hhll, hi8 hhll]
  | .ldaLongX hhmmll => [0xBF#8, lo8 (offsetOf hhmmll), hi8 (offsetOf hhmmll), bankOf hhmmll]
  | .cpyImm imm => 0xC0#8 :: immBytes x imm
  | .cmpDirXInd ll => [0xC1#8, ll]
  | .rep mask => [0xC2#8, mask]
  | .cmpStkS ll => [0xC3#8, ll]
  | .cpyDir ll => [0xC4#8, ll]
  | .cmpDir ll => [0xC5#8, ll]
  | .decDir ll => [0xC6#8, ll]
  | .cmpDirLong ll => [0xC7#8, ll]
  | .iny => [0xC8#8]
  | .cmpImm imm => 0xC9#8 :: immBytes m imm
  | .dex => [0xCA#8]
  | .wai => [0xCB#8]
  | .cpyAbs hhll => [0xCC#8, lo8 hhll, hi8 hhll]
  | .cmpAbs hhll => [0xCD#8, lo8 hhll, hi8 hhll]
  | .decAbs hhll => [0xCE#8, lo8 hhll, hi8 hhll]
  | .cmpLong hhmmll => [0xCF#8, lo8 (offsetOf hhmmll), hi8 (offsetOf hhmmll), bankOf hhmmll]
  | .bne ll => [0xD0#8, ll]
  | .cmpDirIndY ll => [0xD1#8, ll]
  | .cmpDirInd ll => [0xD2#8, ll]
  | .cmpStkSIndY ll => [0xD3#8, ll]
  | .pei ll => [0xD4#8, ll]
  | .cmpDirX ll => [0xD5#8, ll]
  | .decDirX ll => [0xD6#8, ll]
  | .cmpDirLongY ll => [0xD7#8, ll]
  | .cld => [0xD8#8]
  | .cmpAbsY hhll => [0xD9#8, lo8 hhll, hi8 hhll]
  | .phx => [0xDA#8]
  | .stp => [0xDB#8]
  | .jmpAbsLong hhll => [0xDC#8, lo8 hhll, hi8 hhll]
  | .cmpAbsX hhll => [0xDD#8, lo8 hhll, hi8 hhll]
  | .decAbsX hhll => [0xDE#8, lo8 hhll, hi8 hhll]
  | .cmpLongX hhmmll => [0xDF#8, lo8 (offsetOf hhmmll), hi8 (offsetOf hhmmll), bankOf hhmmll]
  | .cpxImm imm => 0xE0#8 :: immBytes x imm
  | .sbcDirXInd ll => [0xE1#8, ll]
  | .sep mask => [0xE2#8, mask]
  | .sbcStkS ll => [0xE3#8, ll]
  | .cpxDir ll => [0xE4#8, ll]
  | .sbcDir ll => [0xE5#8, ll]
  | .incDir ll => [0xE6#8, ll]
  | .sbcDirLong ll => [0xE7#8, ll]
  | .inx => [0xE8#8]
  | .sbcImm imm => 0xE9#8 :: immBytes m imm
  | .nop => [0xEA#8]
  | .xba => [0xEB#8]
  | .cpxAbs hhll => [0xEC#8, lo8 hhll, hi8 hhll]
  | .sbcAbs hhll => [0xED#8, lo8 hhll, hi8 hhll]
  | .incAbs hhll => [0xEE#8, lo8 hhll, hi8 hhll]
  | .sbcLong hhmmll => [0xEF#8, lo8 (offsetOf hhmmll), hi8 (offsetOf hhmmll), bankOf hhmmll]
  | .beq ll => [0xF0#8, ll]
  | .sbcDirIndY ll => [0xF1#8, ll]
  | .sbcDirInd ll => [0xF2#8, ll]
  | .sbcStkSIndY ll => [0xF3#8, ll]
  | .pea hhll => [0xF4#8, lo8 hhll, hi8 hhll]
  | .sbcDirX ll => [0xF5#8, ll]
  | .incDirX ll => [0xF6#8, ll]
  | .sbcDirLongY ll => [0xF7#8, ll]
  | .sed => [0xF8#8]
  | .sbcAbsY hhll => [0xF9#8, lo8 hhll, hi8 hhll]
  | .plx => [0xFA#8]
  | .xce => [0xFB#8]
  | .jsrAbsXInd hhll => [0xFC#8, lo8 hhll, hi8 hhll]
  | .sbcAbsX hhll => [0xFD#8, lo8 hhll, hi8 hhll]
  | .incAbsX hhll => [0xFE#8, lo8 hhll, hi8 hhll]
  | .sbcLongX hhmmll => [0xFF#8, lo8 (offsetOf hhmmll), hi8 (offsetOf hhmmll), bankOf hhmmll]

/-! ### The opcode table's words -/

/-- Byte `k` of an instruction whose bits are `w`, numbered from the least significant bit of its first byte. -/
def tableByte (nbits w k : Nat) : Byte := BitVec.ofNat 8 (w % 2 ^ nbits / 2 ^ (8 * k))

/-- The instruction the decoder reads from a table word of `nbits` bits, the bits above them zero, under the widths
`m = 1` and `x = 1` of `State.reset` (log 16). -/
def decodeTableWord (nbits w : Nat) : Option Instr :=
  match decode true true [tableByte nbits w 0, tableByte nbits w 1, tableByte nbits w 2, tableByte nbits w 3] with
  | .ok (i, _) => some i
  | .error _ => none

end Sys2Proof
end

