-- ==== Sys2Proof/Machine/Recognition.lean ====
section
/-! DEFINITION. What begins a step: the platform's requests, their recognition (`60_exceptions.md` R440 to R442,
`52_stp_wai.md` R382), and the fetch (`30_encoding.md` R92). -/

namespace Sys2Proof.Machine

/-- The pending set after one recognition point's event: new requests are added, and IRQ is as the platform asserts it
(decision D6, log 6). -/
def Requests.after (r : Requests) (ev : PlatformEvent) : Requests :=
  { abort := r.abort || ev.abort
    irq := ev.irqLine
    nmi := r.nmi || ev.nmi
    reset := r.reset || ev.reset }

/-- Read one entry of `Platform.events`. When none is left the platform makes no request and leaves the IRQ line as it
is (log 6). -/
def State.takeEvent (s : State) : State :=
  match s.events with
  | [] => s
  | ev :: rest => (s.setPending (s.pending.after ev)).setEvents rest

/-- What the platform does as a step begins: one entry of `Platform.events` is read, and the devices' time goes on (log 24). -/
def State.poll (s : State) : State := (s.takeEvent).setDeviceTime (s.deviceTime + 1)

/-- What a step does, after recognition. -/
inductive Action where
  /-- The RESET sequence (`70_reset_and_hazards.md` R461). -/
  | reset
  /-- A hardware interrupt's sequence, with the current `PC` as return address (R435, R436). -/
  | interrupt (k : Interrupt)
  /-- WAI ends without a sequence: IRQ with `i = 1` (`52_stp_wai.md` R382, R383). -/
  | wake
  /-- Nothing: stopped, or waiting with nothing pending (`52_stp_wai.md` R382). -/
  | idle
  /-- Fetch, decode and execute. -/
  | execute
  deriving DecidableEq, Repr

/-- The order RESET, ABORT, NMI, IRQ (R442, log 11), with `otherwise` when none of them has its way. IRQ alone is masked,
by `i` (R441). -/
def Requests.first (r : Requests) (i : Bool) (otherwise : Action) : Action :=
  if r.reset then .reset
  else if r.abort then .interrupt .abort
  else if r.nmi then .interrupt .nmi
  else if r.irq && !i then .interrupt .irq
  else otherwise

/-- Recognition: R440 when running, R382 when waiting or stopped. -/
def State.action (s : State) : Action :=
  match s.run with
  | .running => s.pending.first s.i .execute
  | .waiting => s.pending.first s.i (if s.pending.irq then .wake else .idle)
  | .stopped => if s.pending.reset then .reset else .idle

/-- The address of byte `k` of the instruction at `K:PC`, wrapping inside the bank (R92, `10_state.md` R29). -/
def State.codeAddr (s : State) (k : Word) : Addr := addr s.K (s.PC + k)

/-- `n` bytes of the instruction from byte `k` on, read in rising order (`20_memory.md` R80). -/
def State.readCode (s : State) (k : Word) : Nat → Reading (List Byte)
  | 0 => { value := [], after := s }
  | n + 1 =>
    let b := s.readByte (s.codeAddr k)
    let rest := b.after.readCode (k + 1) n
    { value := b.value :: rest.value, after := rest.after }

/-- The instruction at `K:PC` (R92, R94): its opcode byte is read, then the operand bytes that the opcode calls for, in rising order,
and no other byte (`20_memory.md` R80, R87). COP and WDM have their second byte read; BRK has its opcode read only (log 13). -/
def State.fetch (s : State) : Reading Instr :=
  let op := s.readByte (s.codeAddr 0)
  let operand := op.after.readCode 1 (opcodeLen s.m s.x op.value - 1)
  { value := decodeOpcode s.m s.x op.value (operand.value.getD 0 0) (operand.value.getD 1 0) (operand.value.getD 2 0)
    after := operand.after }

/-- A list of bytes written at `K:PC` and on, wrapping inside the bank. -/
def State.writeCode (s : State) (k : Word) : List Byte → State
  | [] => s
  | b :: rest => State.writeCode (s.write (s.codeAddr k) b) (k + 1) rest

/-- The state whose next step fetches what is stored: running, nothing pending and nothing to come, RAM everywhere (log 16). -/
def State.readyToFetch (s : State) : State :=
  (((s.setRun .running).setPending Requests.none).setEvents []).setRegions []

end Sys2Proof.Machine
end

