-- ==== Sys2Proof/Machine/Step.lean ====
section
/-! DEFINITION. One step of the machine (decision D1, `60_exceptions.md` R440, `52_stp_wai.md` R382): the platform's events are
read, then one sequence, one idle step or one instruction happens. -/

namespace Sys2Proof.Machine

/-- One step: recognition first, then what it says. -/
def step (s : State) : Host.Outcome State Fault Refusal :=
  let t := s.poll
  match t.action with
  | .reset => .next t.resetSequence
  | .interrupt k => .next (t.enterInterrupt k t.PC)
  | .wake => .next (t.setRun .running)
  | .idle => .next t
  | .execute =>
    let i := t.fetch
    exec i.value i.after

/-- `s` with a table word of `nbits` bits, the bits above them zero, stored as the four bytes at `K:PC`, and with nothing that
would keep the next step from fetching it (log 16). -/
def State.withFetchWord (s : State) (nbits w : Nat) : State :=
  s.readyToFetch.writeCode 0 [tableByte nbits w 0, tableByte nbits w 1, tableByte nbits w 2, tableByte nbits w 3]

end Sys2Proof.Machine
end

