-- ==== Sys2Proof/Safety.lean ====
section
/-! DEFINITION. The terms that claims about the machine are written in: the state a run stays in (the forcing rule R36 and the
form of memory), numbers read from the state, what an instruction may change, and the forms an operation has.
No meaning uses anything here. -/

namespace Sys2Proof.Machine

/-! ### The states a run stays in -/

/-- The forcing rule (`10_state.md` R36): `e = 1` gives `m = 1`, `x = 1` and `SH = $01`; `x = 1` gives `XH = YH = $00`. -/
abbrev Forced (s : State) : Prop :=
  (s.e = true → s.m = true ∧ s.x = true ∧ s.SH = 0x01#8) ∧ (s.x = true → s.XH = 0x00#8 ∧ s.YH = 0x00#8)

/-- What every step keeps: the forcing rule and the canonical form of memory. -/
abbrev Inv (s : State) : Prop := Forced s ∧ Memory.wf s.mem = true

/-- An instruction completes in a state: a next state, neither a fault nor a refusal. -/
def Completes (i : Instr) (s : State) : Prop := ∃ t, exec i s = .next t

/-- The same instruction executed `n` times, as a block move is (`49_block_move.md` R331). -/
def repeatExec (i : Instr) : Nat → State → Result
  | 0, s => .next s
  | n + 1, s =>
    match exec i s with
    | .next t => repeatExec i n t
    | .fault r => .fault r
    | .refused r => .refused r

/-! ### Accesses, in the order they are made (`20_memory.md` R80, R83, R87) -/

/-- The state after accesses made one after another: a read is made known to the device it is of, and a write does what
`State.write` does. No register changes. -/
def State.perform (s : State) : List Access → State
  | [] => s
  | .read a :: l => (s.readByte a).after.perform l
  | .write a v :: l => (s.write a v).perform l

/-- The byte that a read of `a` answers once the accesses of `l` have been made. -/
def State.readAfter (s : State) (l : List Access) (a : Addr) : Byte := (s.perform l).read a

/-- The 16 bits that reads of a pair of addresses answer, low byte first, once the accesses of `l` have been made. -/
def State.wordAfter (s : State) (l : List Access) (ea : DataAddr) : Word :=
  word (s.readAfter (l ++ [.read ea.lo]) ea.hi) (s.readAfter l ea.lo)

/-- The reads of a list of addresses. -/
def readsAt (l : List Addr) : List Access := l.map .read

/-- The addresses written to. -/
def storesOf : List Access → List Addr
  | [] => []
  | .read _ :: l => storesOf l
  | .write a _ :: l => a :: storesOf l

/-- The device accesses so far once those of `l` have been made: the ones of devices' addresses come on top, the last one first, each
with the number of this step. -/
def State.logged (s : State) (l : List Access) : List (Nat × Access) :=
  ((l.filter fun x => decide (s.kindAt x.addr = .device)).map fun x => (s.deviceTime, x)).reverse ++ s.deviceLog

/-- The reads of the `n` bytes from `K:PC` on (`30_encoding.md` R92, `10_state.md` R29). -/
def State.codeReads (s : State) (n : Nat) : List Access :=
  readsAt ((List.range n).map fun k => addr s.K (s.PC + BitVec.ofNat 16 k))

/-- The `n` bytes from `K:PC` on, each as it is read after those before it. -/
def State.codeBytes (s : State) (n : Nat) : List Byte :=
  (List.range n).map fun k => s.readAfter (s.codeReads k) (addr s.K (s.PC + BitVec.ofNat 16 k))

/-! ### Numbers read from the state (`00_scope.md` R10, R11, R16) -/

/-- `M` in bits. -/
def State.mBits (s : State) : Nat := if s.m then 8 else 16

/-- `XW` in bits. -/
def State.xBits (s : State) : Nat := if s.x then 8 else 16

/-- `Acc` as a number. -/
def State.accNat (s : State) : Nat := if s.m then s.A.toNat else s.C.toNat

/-- Data of `n` bits at a pair of addresses as a number, little endian, the low byte read first (`20_memory.md` R61, R80). -/
def State.dataNat (s : State) (n : Nat) (ea : DataAddr) : Nat :=
  if n = 8 then (s.read ea.lo).toNat else (s.read ea.lo).toNat + 256 * (s.readAfter [.read ea.lo] ea.hi).toNat

/-- The addresses of data of `n` bits, low byte first. -/
def dataBytes (n : Nat) (ea : DataAddr) : List Addr := if n = 8 then [ea.lo] else [ea.lo, ea.hi]

/-- The writes of a number of `n` bits, in the order of `20_memory.md` R80: low, then high. -/
def dataWrites (n : Nat) (ea : DataAddr) (v : Nat) : List Access :=
  if n = 8 then [.write ea.lo (BitVec.ofNat 8 v)]
  else [.write ea.lo (BitVec.ofNat 8 v), .write ea.hi (BitVec.ofNat 8 (v / 256))]

/-- `signed_n(v)` (R11). -/
def signedNat (n v : Nat) : Int := if v < 2 ^ (n - 1) then (v : Int) else (v : Int) - 2 ^ n

/-- Outside `-2^(n-1) .. 2^(n-1) - 1`. -/
def OutOfRange (n : Nat) (k : Int) : Prop := k < -2 ^ (n - 1) ∨ 2 ^ (n - 1) ≤ k

/-- `n` and `z` say of `t` what `SetNZ` says of an `n`-bit result `r` (R16). -/
def SignZero (n r : Nat) (t : State) : Prop := (t.n = true ↔ 2 ^ (n - 1) ≤ r) ∧ (t.z = true ↔ r = 0)

/-- Every one of the `k` low digits is 0 to 9 (`40_adc_sbc.md` R174, R177). -/
def bcdDigits : Nat → Nat → Bool
  | 0, _ => true
  | k + 1, v => decide (v % 16 ≤ 9) && bcdDigits k (v / 16)

/-- The number that `k` BCD digits stand for (R174). -/
def bcdNumber : Nat → Nat → Nat
  | 0, _ => 0
  | k + 1, v => v % 16 + 10 * bcdNumber k (v / 16)

/-- `S` moved by `k`: all of it in native mode, `SL` alone in emulation mode with `SH = $01` (`20_memory.md` R77). -/
def State.stackMoved (s : State) (k : Word) : Word := if s.e then word 0x01#8 (s.SL + lo8 k) else s.S + k

/-- The low byte of an index register when `x = 1`, all of it when `x = 0` (`10_state.md` R23, R36). -/
def indexKept (x : Bool) (w : Word) : Word := if x then zext16 (lo8 w) else w

/-! ### What an instruction may change -/

/-- What an instruction may change, and the accesses it makes. Whatever is not named stays as it is; `PC` is spoken of apart. -/
structure Writes where
  C : Bool := false
  DBR : Bool := false
  D : Bool := false
  K : Bool := false
  S : Bool := false
  X : Bool := false
  Y : Bool := false
  e : Bool := false
  run : Bool := false
  pending : Bool := false
  freeCount : Bool := false
  /-- The bits of `P` that may change. -/
  flags : Byte := 0x00#8
  /-- The accesses of memory, in the order they are made: every read and every write, with the byte written. -/
  accesses : List Access := []
  deriving DecidableEq, Repr

/-- From `s` to `t` nothing has changed but `PC` and what `w` names, and the accesses that `w` names, those and no others, have been
made in their order (`20_memory.md` R80, R83, R87). -/
structure Frame (w : Writes) (s t : State) : Prop where
  C : w.C = true ∨ t.C = s.C
  DBR : w.DBR = true ∨ t.DBR = s.DBR
  D : w.D = true ∨ t.D = s.D
  K : w.K = true ∨ t.K = s.K
  S : w.S = true ∨ t.S = s.S
  X : w.X = true ∨ t.X = s.X
  Y : w.Y = true ∨ t.Y = s.Y
  e : w.e = true ∨ t.e = s.e
  run : w.run = true ∨ t.run = s.run
  pending : w.pending = true ∨ t.pending = s.pending
  freeCount : w.freeCount = true ∨ t.freeCount = s.freeCount
  events : t.events = s.events
  vectorMap : t.vectorMap = s.vectorMap
  regions : t.regions = s.regions
  deviceTime : t.deviceTime = s.deviceTime
  P : t.P &&& ~~~w.flags = s.P &&& ~~~w.flags
  /-- Devices have had the accesses of their addresses, in order. -/
  deviceLog : t.deviceLog = s.logged w.accesses
  /-- A byte written to RAM reads as what was written, and one written to ROM as before. -/
  stored : ∀ (a : Addr) (v : Byte), .write a v ∈ w.accesses →
    (s.kindAt a = .ram → t.read a = v) ∧ (s.kindAt a = .rom → t.read a = s.read a)
  /-- Every byte not written reads as before; a device's byte may read otherwise once a device has been accessed. -/
  mem : ∀ a : Addr, a ∉ storesOf w.accesses → (s.kindAt a = .device → ∀ x ∈ w.accesses, s.kindAt x.addr ≠ .device) →
    t.read a = s.read a

/-- The bits of `P` called `n` and `z`. -/
def flagsNZ : Byte := 0x82#8

/-- The bits of `P` called `n`, `z` and `c`. -/
def flagsNZC : Byte := 0x83#8

/-- The bits of `P` called `n`, `v` and `z`. -/
def flagsNVZ : Byte := 0xC2#8

/-- The bits of `P` called `n`, `v`, `z` and `c`. -/
def flagsNVZC : Byte := 0xC3#8

/-- The bit of `P` called `z`. -/
def flagZ : Byte := 0x02#8

/-! ### The forms of the operations on data -/

/-- The fourteen memory modes of the accumulator operations (`40_adc_sbc.md` R170, `48_load_store.md` R314). -/
inductive DataMode where
  | dirXInd (ll : Byte)
  | stkS (ll : Byte)
  | dir (ll : Byte)
  | dirLong (ll : Byte)
  | abs (hhll : Word)
  | long (hhmmll : Addr)
  | dirIndY (ll : Byte)
  | dirInd (ll : Byte)
  | stkSIndY (ll : Byte)
  | dirX (ll : Byte)
  | dirLongY (ll : Byte)
  | absY (hhll : Word)
  | absX (hhll : Word)
  | longX (hhmmll : Addr)
  deriving DecidableEq, Repr

/-- How a mode finds its data addresses. -/
def DataMode.find : DataMode → State → Reading DataAddr
  | .dirXInd ll => eaDirXInd ll
  | .stkS ll => found (eaStkS ll)
  | .dir ll => found (eaDir ll)
  | .dirLong ll => eaDirLong ll
  | .abs hhll => found (eaAbs hhll)
  | .long hhmmll => found (eaLong hhmmll)
  | .dirIndY ll => eaDirIndY ll
  | .dirInd ll => eaDirInd ll
  | .stkSIndY ll => eaStkSIndY ll
  | .dirX ll => found (eaDirX ll)
  | .dirLongY ll => eaDirLongY ll
  | .absY hhll => found (eaAbsY hhll)
  | .absX hhll => found (eaAbsX hhll)
  | .longX hhmmll => found (eaLongX hhmmll)

/-- The data addresses of a mode. -/
def DataMode.ea (mode : DataMode) (s : State) : DataAddr := (mode.find s).value

/-- The addresses of a mode's pointer, in the order they are read: low, middle, high (`31_addressing_modes.md` R135 to R139, R151). -/
def DataMode.pointer : DataMode → State → List Addr
  | .dirXInd ll, s => [s.directAddr .old ll s.X 0, s.directAddr .old ll s.X 1]
  | .dirIndY ll, s => [s.directAddr .old ll 0 0, s.directAddr .old ll 0 1]
  | .dirInd ll, s => [s.directAddr .old ll 0 0, s.directAddr .old ll 0 1]
  | .dirLong ll, s => [s.directAddr .new ll 0 0, s.directAddr .new ll 0 1, s.directAddr .new ll 0 2]
  | .dirLongY ll, s => [s.directAddr .new ll 0 0, s.directAddr .new ll 0 1, s.directAddr .new ll 0 2]
  | .stkSIndY ll, s => [addr 0 (s.S + zext16 ll), addr 0 (s.S + zext16 ll + 1)]
  | .stkS _, _ => []
  | .dir _, _ => []
  | .abs _, _ => []
  | .long _, _ => []
  | .dirX _, _ => []
  | .absY _, _ => []
  | .absX _, _ => []
  | .longX _, _ => []

/-- The length of an instruction in a mode (`30_encoding.md` R91). -/
def DataMode.len : DataMode → Word
  | .dirXInd _ => 2
  | .stkS _ => 2
  | .dir _ => 2
  | .dirLong _ => 2
  | .abs _ => 3
  | .long _ => 4
  | .dirIndY _ => 2
  | .dirInd _ => 2
  | .stkSIndY _ => 2
  | .dirX _ => 2
  | .dirLongY _ => 2
  | .absY _ => 3
  | .absX _ => 3
  | .longX _ => 4

/-- The fifteen operands of the accumulator operations. -/
inductive Operand where
  | imm (v : Word)
  | mem (mode : DataMode)
  deriving DecidableEq, Repr

/-- Where an operation's data come from: their number, and the accesses that read them. -/
structure Source where
  val : State → Nat
  accesses : State → List Access

/-- The data of `M` bits as a number (`31_addressing_modes.md` R120, R140), read once the mode's pointer has been (`20_memory.md`
R80). -/
def Operand.val (o : Operand) (s : State) : Nat :=
  match o with
  | .imm v => v.toNat % 2 ^ s.mBits
  | .mem mode => (s.perform (readsAt (mode.pointer s))).dataNat s.mBits (mode.ea s)

/-- The accesses that read the data: the mode's pointer, then the data. The bytes of an immediate are read by the fetch. -/
def Operand.accesses (o : Operand) (s : State) : List Access :=
  match o with
  | .imm _ => []
  | .mem mode => readsAt (mode.pointer s ++ dataBytes s.mBits (mode.ea s))

/-- An operand of the accumulator operations as a source. -/
def Operand.source (o : Operand) : Source := { val := o.val, accesses := o.accesses }

/-- Immediate data of `XW` bits (`30_encoding.md` R93 case B). -/
def indexImm (v : Word) : Source := { val := fun s => v.toNat % 2 ^ s.xBits, accesses := fun _ => [] }

/-- Data of `XW` bits at a pair of addresses. -/
def indexAt (ea : State → DataAddr) : Source :=
  { val := fun s => s.dataNat s.xBits (ea s), accesses := fun s => readsAt (dataBytes s.xBits (ea s)) }

/-- The length of the instruction (`30_encoding.md` R91, R93). -/
def Operand.len (o : Operand) (s : State) : Word :=
  match o with
  | .imm _ => if s.m then 2 else 3
  | .mem mode => mode.len

/-- ADC with an operand. -/
def adcOf : Operand → Instr
  | .imm v => .adcImm v
  | .mem (.dirXInd ll) => .adcDirXInd ll
  | .mem (.stkS ll) => .adcStkS ll
  | .mem (.dir ll) => .adcDir ll
  | .mem (.dirLong ll) => .adcDirLong ll
  | .mem (.abs hhll) => .adcAbs hhll
  | .mem (.long hhmmll) => .adcLong hhmmll
  | .mem (.dirIndY ll) => .adcDirIndY ll
  | .mem (.dirInd ll) => .adcDirInd ll
  | .mem (.stkSIndY ll) => .adcStkSIndY ll
  | .mem (.dirX ll) => .adcDirX ll
  | .mem (.dirLongY ll) => .adcDirLongY ll
  | .mem (.absY hhll) => .adcAbsY hhll
  | .mem (.absX hhll) => .adcAbsX hhll
  | .mem (.longX hhmmll) => .adcLongX hhmmll

/-- SBC with an operand. -/
def sbcOf : Operand → Instr
  | .imm v => .sbcImm v
  | .mem (.dirXInd ll) => .sbcDirXInd ll
  | .mem (.stkS ll) => .sbcStkS ll
  | .mem (.dir ll) => .sbcDir ll
  | .mem (.dirLong ll) => .sbcDirLong ll
  | .mem (.abs hhll) => .sbcAbs hhll
  | .mem (.long hhmmll) => .sbcLong hhmmll
  | .mem (.dirIndY ll) => .sbcDirIndY ll
  | .mem (.dirInd ll) => .sbcDirInd ll
  | .mem (.stkSIndY ll) => .sbcStkSIndY ll
  | .mem (.dirX ll) => .sbcDirX ll
  | .mem (.dirLongY ll) => .sbcDirLongY ll
  | .mem (.absY hhll) => .sbcAbsY hhll
  | .mem (.absX hhll) => .sbcAbsX hhll
  | .mem (.longX hhmmll) => .sbcLongX hhmmll

/-- CMP with an operand. -/
def cmpOf : Operand → Instr
  | .imm v => .cmpImm v
  | .mem (.dirXInd ll) => .cmpDirXInd ll
  | .mem (.stkS ll) => .cmpStkS ll
  | .mem (.dir ll) => .cmpDir ll
  | .mem (.dirLong ll) => .cmpDirLong ll
  | .mem (.abs hhll) => .cmpAbs hhll
  | .mem (.long hhmmll) => .cmpLong hhmmll
  | .mem (.dirIndY ll) => .cmpDirIndY ll
  | .mem (.dirInd ll) => .cmpDirInd ll
  | .mem (.stkSIndY ll) => .cmpStkSIndY ll
  | .mem (.dirX ll) => .cmpDirX ll
  | .mem (.dirLongY ll) => .cmpDirLongY ll
  | .mem (.absY hhll) => .cmpAbsY hhll
  | .mem (.absX hhll) => .cmpAbsX hhll
  | .mem (.longX hhmmll) => .cmpLongX hhmmll

/-- AND with an operand. -/
def andOf : Operand → Instr
  | .imm v => .andImm v
  | .mem (.dirXInd ll) => .andDirXInd ll
  | .mem (.stkS ll) => .andStkS ll
  | .mem (.dir ll) => .andDir ll
  | .mem (.dirLong ll) => .andDirLong ll
  | .mem (.abs hhll) => .andAbs hhll
  | .mem (.long hhmmll) => .andLong hhmmll
  | .mem (.dirIndY ll) => .andDirIndY ll
  | .mem (.dirInd ll) => .andDirInd ll
  | .mem (.stkSIndY ll) => .andStkSIndY ll
  | .mem (.dirX ll) => .andDirX ll
  | .mem (.dirLongY ll) => .andDirLongY ll
  | .mem (.absY hhll) => .andAbsY hhll
  | .mem (.absX hhll) => .andAbsX hhll
  | .mem (.longX hhmmll) => .andLongX hhmmll

/-- EOR with an operand. -/
def eorOf : Operand → Instr
  | .imm v => .eorImm v
  | .mem (.dirXInd ll) => .eorDirXInd ll
  | .mem (.stkS ll) => .eorStkS ll
  | .mem (.dir ll) => .eorDir ll
  | .mem (.dirLong ll) => .eorDirLong ll
  | .mem (.abs hhll) => .eorAbs hhll
  | .mem (.long hhmmll) => .eorLong hhmmll
  | .mem (.dirIndY ll) => .eorDirIndY ll
  | .mem (.dirInd ll) => .eorDirInd ll
  | .mem (.stkSIndY ll) => .eorStkSIndY ll
  | .mem (.dirX ll) => .eorDirX ll
  | .mem (.dirLongY ll) => .eorDirLongY ll
  | .mem (.absY hhll) => .eorAbsY hhll
  | .mem (.absX hhll) => .eorAbsX hhll
  | .mem (.longX hhmmll) => .eorLongX hhmmll

/-- ORA with an operand. -/
def oraOf : Operand → Instr
  | .imm v => .oraImm v
  | .mem (.dirXInd ll) => .oraDirXInd ll
  | .mem (.stkS ll) => .oraStkS ll
  | .mem (.dir ll) => .oraDir ll
  | .mem (.dirLong ll) => .oraDirLong ll
  | .mem (.abs hhll) => .oraAbs hhll
  | .mem (.long hhmmll) => .oraLong hhmmll
  | .mem (.dirIndY ll) => .oraDirIndY ll
  | .mem (.dirInd ll) => .oraDirInd ll
  | .mem (.stkSIndY ll) => .oraStkSIndY ll
  | .mem (.dirX ll) => .oraDirX ll
  | .mem (.dirLongY ll) => .oraDirLongY ll
  | .mem (.absY hhll) => .oraAbsY hhll
  | .mem (.absX hhll) => .oraAbsX hhll
  | .mem (.longX hhmmll) => .oraLongX hhmmll

/-- LDA with an operand. -/
def ldaOf : Operand → Instr
  | .imm v => .ldaImm v
  | .mem (.dirXInd ll) => .ldaDirXInd ll
  | .mem (.stkS ll) => .ldaStkS ll
  | .mem (.dir ll) => .ldaDir ll
  | .mem (.dirLong ll) => .ldaDirLong ll
  | .mem (.abs hhll) => .ldaAbs hhll
  | .mem (.long hhmmll) => .ldaLong hhmmll
  | .mem (.dirIndY ll) => .ldaDirIndY ll
  | .mem (.dirInd ll) => .ldaDirInd ll
  | .mem (.stkSIndY ll) => .ldaStkSIndY ll
  | .mem (.dirX ll) => .ldaDirX ll
  | .mem (.dirLongY ll) => .ldaDirLongY ll
  | .mem (.absY hhll) => .ldaAbsY hhll
  | .mem (.absX hhll) => .ldaAbsX hhll
  | .mem (.longX hhmmll) => .ldaLongX hhmmll

/-- STA in a mode. -/
def staOf : DataMode → Instr
  | .dirXInd ll => .staDirXInd ll
  | .stkS ll => .staStkS ll
  | .dir ll => .staDir ll
  | .dirLong ll => .staDirLong ll
  | .abs hhll => .staAbs hhll
  | .long hhmmll => .staLong hhmmll
  | .dirIndY ll => .staDirIndY ll
  | .dirInd ll => .staDirInd ll
  | .stkSIndY ll => .staStkSIndY ll
  | .dirX ll => .staDirX ll
  | .dirLongY ll => .staDirLongY ll
  | .absY hhll => .staAbsY hhll
  | .absX hhll => .staAbsX hhll
  | .longX hhmmll => .staLongX hhmmll

/-- The four memory modes of the shifts, DEC, INC, STZ and BIT (`43_shifts.md`, `41_compare_incdec.md` R194, R197). -/
inductive MemMode where
  | dir (ll : Byte)
  | abs (hhll : Word)
  | dirX (ll : Byte)
  | absX (hhll : Word)
  deriving DecidableEq, Repr

/-- The data addresses of a mode. -/
def MemMode.ea : MemMode → State → DataAddr
  | .dir ll => eaDir ll
  | .abs hhll => eaAbs hhll
  | .dirX ll => eaDirX ll
  | .absX hhll => eaAbsX hhll

/-- The length of an instruction in a mode. -/
def MemMode.len : MemMode → Word
  | .dir _ => 2
  | .abs _ => 3
  | .dirX _ => 2
  | .absX _ => 3

/-- ASL in a mode. -/
def aslOf : MemMode → Instr
  | .dir ll => .aslDir ll
  | .abs hhll => .aslAbs hhll
  | .dirX ll => .aslDirX ll
  | .absX hhll => .aslAbsX hhll

/-- LSR in a mode. -/
def lsrOf : MemMode → Instr
  | .dir ll => .lsrDir ll
  | .abs hhll => .lsrAbs hhll
  | .dirX ll => .lsrDirX ll
  | .absX hhll => .lsrAbsX hhll

/-- ROL in a mode. -/
def rolOf : MemMode → Instr
  | .dir ll => .rolDir ll
  | .abs hhll => .rolAbs hhll
  | .dirX ll => .rolDirX ll
  | .absX hhll => .rolAbsX hhll

/-- ROR in a mode. -/
def rorOf : MemMode → Instr
  | .dir ll => .rorDir ll
  | .abs hhll => .rorAbs hhll
  | .dirX ll => .rorDirX ll
  | .absX hhll => .rorAbsX hhll

/-- DEC in a mode. -/
def decOf : MemMode → Instr
  | .dir ll => .decDir ll
  | .abs hhll => .decAbs hhll
  | .dirX ll => .decDirX ll
  | .absX hhll => .decAbsX hhll

/-- INC in a mode. -/
def incOf : MemMode → Instr
  | .dir ll => .incDir ll
  | .abs hhll => .incAbs hhll
  | .dirX ll => .incDirX ll
  | .absX hhll => .incAbsX hhll

/-- STZ in a mode. -/
def stzOf : MemMode → Instr
  | .dir ll => .stzDir ll
  | .abs hhll => .stzAbs hhll
  | .dirX ll => .stzDirX ll
  | .absX hhll => .stzAbsX hhll

/-- BIT in a mode. -/
def bitOf : MemMode → Instr
  | .dir ll => .bitDir ll
  | .abs hhll => .bitAbs hhll
  | .dirX ll => .bitDirX ll
  | .absX hhll => .bitAbsX hhll

/-! ### The shapes of what claims say of an instruction -/

/-- `i` reads data of `XW` bits into an index register. -/
def LoadsIndex (i : Instr) (reg : State → Word) (w : Writes) (data : Source) (len : State → Word) : Prop :=
  ∀ s : State, ∃ t, exec i s = .next t ∧ (reg t).toNat = data.val s ∧ SignZero s.xBits (data.val s) t ∧
    t.PC = s.PC + len s ∧ Frame { w with flags := flagsNZ, accesses := data.accesses s } s t

/-- `i` compares a register of `bits` bits with data: an unsigned compare for `c`, the truncated difference for `n`. -/
def ComparesWith (i : Instr) (bits reg : State → Nat) (data : Source) (len : State → Word) : Prop :=
  ∀ s : State, ∃ t, exec i s = .next t ∧ (t.c = true ↔ data.val s ≤ reg s) ∧ (t.z = true ↔ reg s = data.val s) ∧
    (t.n = true ↔ 2 ^ (bits s - 1) ≤ (reg s + 2 ^ bits s - data.val s) % 2 ^ bits s) ∧
    t.PC = s.PC + len s ∧ Frame { flags := flagsNZC, accesses := data.accesses s } s t

/-- `i` reads the bytes of its pointer if it has one, stores the number `v` of `bits` bits at `ea`, and does nothing else. -/
def StoresAt (i : Instr) (bits v : State → Nat) (pointer : State → List Addr) (ea : State → DataAddr) (len : Word) : Prop :=
  ∀ s : State, Memory.wf s.mem = true → ∃ t, exec i s = .next t ∧ t.PC = s.PC + len ∧
    Frame { accesses := readsAt (pointer s) ++ dataWrites (bits s) (ea s) (v s) } s t

/-- `i` reads all data of `M` bits, writes `f` of it where it was, sets `n` and `z` from the result, and does nothing else. -/
def ReplacesData (i : Instr) (f : Nat → Nat → Nat) (ea : State → DataAddr) (len : Word) : Prop :=
  ∀ s : State, Memory.wf s.mem = true → ∃ t, exec i s = .next t ∧
    SignZero s.mBits (f s.mBits (s.dataNat s.mBits (ea s))) t ∧ t.PC = s.PC + len ∧
    Frame { flags := flagsNZ,
            accesses := readsAt (dataBytes s.mBits (ea s)) ++
              dataWrites s.mBits (ea s) (f s.mBits (s.dataNat s.mBits (ea s))) } s t

/-- `i` shifts the accumulator: `f` of width, carry and operand is the result, `out` the bit shifted out. -/
def ShiftsAcc (i : Instr) (f : Nat → Nat → Nat → Nat) (out : Nat → Nat → Prop) : Prop :=
  ∀ s : State, ∃ t, exec i s = .next t ∧ t.accNat = f s.mBits (carryNat s.c) s.accNat ∧ (t.c = true ↔ out s.mBits s.accNat) ∧
    SignZero s.mBits t.accNat t ∧ (s.m = true → t.B = s.B) ∧ t.PC = s.PC + 1 ∧ Frame { C := true, flags := flagsNZC } s t

/-- `i` shifts data in memory: `f` of width, carry and operand is the result, `out` the bit shifted out. -/
def ShiftsData (i : Instr) (f : Nat → Nat → Nat → Nat) (out : Nat → Nat → Prop) (ea : State → DataAddr) (len : Word) : Prop :=
  ∀ s : State, Memory.wf s.mem = true → ∃ t, exec i s = .next t ∧
    (t.c = true ↔ out s.mBits (s.dataNat s.mBits (ea s))) ∧
    SignZero s.mBits (f s.mBits (carryNat s.c) (s.dataNat s.mBits (ea s))) t ∧ t.PC = s.PC + len ∧
    Frame { flags := flagsNZC,
            accesses := readsAt (dataBytes s.mBits (ea s)) ++
              dataWrites s.mBits (ea s) (f s.mBits (carryNat s.c) (s.dataNat s.mBits (ea s))) } s t

/-- `i` branches when `cond` holds: to `PC + 2` plus the signed displacement, modulo `2^16`, and to `PC + 2` otherwise. -/
def BranchesOn (i : Byte → Instr) (cond : State → Bool) : Prop :=
  ∀ (ll : Byte) (s : State), ∃ t, exec (i ll) s = .next t ∧
    (cond s = true → (t.PC.toNat : Int) = ((s.PC.toNat : Int) + 2 + ll.toInt) % 65536) ∧
    (cond s = false → t.PC = s.PC + 2) ∧ Frame {} s t

/-- `i` goes to `target` and does nothing else but what `w` names. -/
def JumpsTo (i : Instr) (bank : State → Byte) (target : State → Word) (w : State → Writes) : Prop :=
  ∀ s : State, ∃ t, exec i s = .next t ∧ t.K = bank s ∧ t.PC = target s ∧ Frame (w s) s t

/-- `i` makes the bits of `mask` in `P` all `value`, and does nothing else. -/
def PutsFlag (i : Instr) (mask : Byte) (value : Bool) : Prop :=
  ∀ s : State, ∃ t, exec i s = .next t ∧ t.P = (if value then s.P ||| mask else s.P &&& ~~~mask) ∧
    t.PC = s.PC + 1 ∧ Frame { flags := mask } s t

/-- `i` pushes one byte. -/
def PushesByte (i : Instr) (age : Age) (v : State → Byte) : Prop :=
  ∀ s : State, Memory.wf s.mem = true → ∃ t, exec i s = .next t ∧ t.S = s.stackMoved (-1) ∧ t.PC = s.PC + 1 ∧
    Frame { S := true, accesses := [.write (s.stackAddr age 0) (v s)] } s t

/-- `i` pushes 16 bits, high byte first and at the higher address, after the accesses that find them. -/
def PushesWord (i : Instr) (age : Age) (before : State → List Access) (v : State → Word) (len : Word) : Prop :=
  ∀ s : State, Memory.wf s.mem = true → ∃ t, exec i s = .next t ∧ t.S = s.stackMoved (-2) ∧ t.PC = s.PC + len ∧
    Frame { S := true,
            accesses := before s ++ [.write (s.stackAddr age 0) (hi8 (v s)), .write (s.stackAddr age (-1)) (lo8 (v s))] } s t

/-- `i` pushes a register: one byte of it when `narrow` holds, 16 bits otherwise, high byte first; old. -/
def PushesRegister (i : Instr) (narrow : State → Bool) (reg : State → Word) : Prop :=
  ∀ s : State, Memory.wf s.mem = true → ∃ t, exec i s = .next t ∧
    (narrow s = true → t.S = s.stackMoved (-1) ∧
      Frame { S := true, accesses := [.write (s.stackAddr .old 0) (lo8 (reg s))] } s t) ∧
    (narrow s = false → t.S = s.stackMoved (-2) ∧
      Frame { S := true,
              accesses := [.write (s.stackAddr .old 0) (hi8 (reg s)), .write (s.stackAddr .old (-1)) (lo8 (reg s))] } s t) ∧
    t.PC = s.PC + 1

/-- The two bytes that a pull of 16 bits reads, low byte first (`20_memory.md` R76); a pull of 8 bits reads the first. -/
def State.pulledPair (s : State) (age : Age) : DataAddr := { lo := s.stackAddr age 1, hi := s.stackAddr age 2 }

/-- The distance of a pull of `n` bits. -/
def pullStep (n : Nat) : Word := if n = 8 then 1 else 2

/-- `i` pulls `n` bits into a register and sets `n` and `z` from them. -/
def PullsInto (i : Instr) (age : Age) (n : State → Nat) (reg : State → Nat) (w : Writes) : Prop :=
  ∀ s : State, ∃ t, exec i s = .next t ∧ reg t = s.dataNat (n s) (s.pulledPair age) ∧
    SignZero (n s) (s.dataNat (n s) (s.pulledPair age)) t ∧ t.S = s.stackMoved (pullStep (n s)) ∧ t.PC = s.PC + 1 ∧
    Frame { w with S := true, flags := flagsNZ, accesses := readsAt (dataBytes (n s) (s.pulledPair age)) } s t

/-- `i` copies `value` into a register and sets `n` and `z` from the low `n` bits of `value`. -/
def CopiesInto (i : Instr) (reg : State → Word) (w : Writes) (n : State → Nat) (value : State → Word) : Prop :=
  ∀ s : State, ∃ t, exec i s = .next t ∧ reg t = value s ∧ SignZero (n s) ((value s).toNat % 2 ^ n s) t ∧
    t.PC = s.PC + 1 ∧ Frame { w with flags := flagsNZ } s t

/-! ### Interrupts -/

/-- The addresses of an interrupt's frame (`60_exceptions.md` R431): four bytes in native mode, three in emulation mode. -/
def State.frameAddrs (s : State) : List Addr :=
  if s.e then [s.stackAddr .old 0, s.stackAddr .old (-1), s.stackAddr .old (-2)]
  else [s.stackAddr .old 0, s.stackAddr .old (-1), s.stackAddr .old (-2), s.stackAddr .old (-3)]

/-- The pair of addresses that a vector is read from (R426): each as `vectorMap` redirects it. -/
def State.vectorPair (s : State) (vec : Addr) : DataAddr :=
  { lo := mapVector s.vectorMap vec, hi := mapVector s.vectorMap (vec + 1) }

/-- From `s` to `t` an interrupt was taken with the pushes of `frame` and through the vector at `vec`, which is read after them, low
byte first (`60_exceptions.md` R430): the flags, and the way to the handler. -/
def EntersThrough (s t : State) (frame : List Access) (vec : Addr) : Prop :=
  t.i = true ∧ t.d = false ∧ t.K = 0 ∧ t.PC = s.wordAfter frame (s.vectorPair vec) ∧ t.run = .running ∧
  Frame { K := true, S := true, run := true, pending := true, flags := 0x0C#8,
          accesses := frame ++ readsAt [(s.vectorPair vec).lo, (s.vectorPair vec).hi] } s t

/-- From `s` to `t` an interrupt was taken in native mode with return address `ret` through the vector at `vec` (R430, R431). -/
def EntersNative (s t : State) (ret : Word) (vec : Addr) : Prop :=
  t.S = s.S - 4 ∧
  EntersThrough s t [.write (addr 0 s.S) s.K, .write (addr 0 (s.S - 1)) (hi8 ret), .write (addr 0 (s.S - 2)) (lo8 ret),
    .write (addr 0 (s.S - 3)) s.P] vec

/-- The same in emulation mode (R430, R431, R433): no `K`, page 1, and bit 4 of the pushed `P` is `bbit`. -/
def EntersEmulation (s t : State) (ret : Word) (vec : Addr) (bbit : Bool) : Prop :=
  t.S = word 1 (s.SL - 3) ∧
  EntersThrough s t [.write (addr 0 (word 1 s.SL)) (hi8 ret), .write (addr 0 (word 1 (s.SL - 1))) (lo8 ret),
    .write (addr 0 (word 1 (s.SL - 2))) (if bbit then s.P ||| 0x10#8 else s.P &&& 0xEF#8)] vec

/-- Interrupt `k` is the one a step takes in `s`: not stopped, nothing earlier in the order RESET, ABORT, NMI, IRQ, and an
IRQ only with `i = 0` (`60_exceptions.md` R440 to R442, `52_stp_wai.md` R382; log 11). -/
abbrev Takes (s : State) (k : Interrupt) : Prop :=
  s.run ≠ .stopped ∧ s.pending.reset = false ∧
  match k with
  | .abort => s.pending.abort = true
  | .nmi => s.pending.abort = false ∧ s.pending.nmi = true
  | .irq => s.pending.abort = false ∧ s.pending.nmi = false ∧ s.pending.irq = true ∧ s.i = false
  | .brk => False
  | .cop => False

end Sys2Proof.Machine
end

