-- ==== Sys2Proof/Certificates/Slice0/Obligations.lean ====
section
/-! DEFINITION. The statements for the provers, in the order of `OBLIGATIONS.json`. Each docstring names the rules of spec/ the
statement formalises, or the log entry of the model's choice it rests on. `Frame` says that nothing else changes, which accesses of
memory are made, in which order, and what is at the addresses written; what a device answers stays open (log 24). -/

open Sys2Proof Sys2Proof.Machine

/-! ### Encoding (`30_encoding.md`) -/

/-- Decoding an encoded well-formed instruction gives it back, with what follows it untouched, under every `m` and `x`
(R90 to R97). -/
def Obligations.DecodeOfEncode : Prop :=
  ∀ (m x : Bool) (i : Instr) (rest : List Byte), i.wf m x = true →
    decode m x (encode m x i ++ rest) = .ok (i, rest)

/-- Every sequence of bytes that decodes is the encoding of the instruction it decodes to, which is well formed (R92 to R94):
each sequence of bytes has one meaning under given `m` and `x`. -/
def Obligations.EncodeOfDecode : Prop :=
  ∀ (m x : Bool) (bytes rest : List Byte) (i : Instr), decode m x bytes = .ok (i, rest) →
    encode m x i ++ rest = bytes ∧ i.wf m x = true

/-- No opcode is illegal: with its operand bytes there, every opcode byte decodes to an instruction, under every `m` and `x`
(R98), of one to four bytes (R91). -/
def Obligations.EveryOpcodeDecodes : Prop :=
  ∀ (m x : Bool) (op b1 b2 b3 : Byte) (rest : List Byte), ∃ i rest',
    decode m x (op :: b1 :: b2 :: b3 :: rest) = .ok (i, rest') ∧ 1 ≤ instrLen m x i ∧ instrLen m x i ≤ 4

/-- The lengths of the eighteen immediates (R93, cases A to D), and that no other length depends on `m` or `x` (R94). -/
def Obligations.ImmediateLengths : Prop :=
  (∀ (m x : Bool) (v : Word),
    (∀ i ∈ [Instr.oraImm v, .andImm v, .eorImm v, .adcImm v, .bitImm v, .ldaImm v, .cmpImm v, .sbcImm v],
      instrLen m x i = if m then 2 else 3) ∧
    (∀ i ∈ [Instr.ldyImm v, .ldxImm v, .cpyImm v, .cpxImm v], instrLen m x i = if x then 2 else 3) ∧
    instrLen m x (.per v) = 3 ∧ instrLen m x (.pea v) = 3) ∧
  (∀ (m x : Bool) (b : Byte), ∀ i ∈ [Instr.cop b, .wdm b, .rep b, .sep b], instrLen m x i = 2) ∧
  (∀ (m x m' x' : Bool) (i : Instr),
    (∀ v, i ∉ [Instr.oraImm v, .andImm v, .eorImm v, .adcImm v, .bitImm v, .ldaImm v, .cmpImm v, .sbcImm v,
      .ldyImm v, .ldxImm v, .cpyImm v, .cpxImm v]) → instrLen m x i = instrLen m' x' i)

/-- Words written out from the spec decode to the instructions it names: `$AF $56 $34 $12` (R92), `$54 $34 $12` (R92, R335), and
`$A9 $01 $0A`, one instruction when `m = 0` and two when `m = 1` (R94). -/
def Obligations.SpecWordsDecode : Prop :=
  decode true true [0xAF#8, 0x56#8, 0x34#8, 0x12#8] = .ok (.ldaLong 0x123456#24, []) ∧
  decode false false [0x54#8, 0x34#8, 0x12#8] = .ok (.mvn 0x34#8 0x12#8, []) ∧
  decode false false [0xA9#8, 0x01#8, 0x0A#8] = .ok (.ldaImm 0x0A01#16, []) ∧
  decode true false [0xA9#8, 0x01#8, 0x0A#8] = .ok (.ldaImm 0x0001#16, [0x0A#8]) ∧
  decode true false [0x0A#8] = .ok (.aslAcc, [])

/-! ### Memory and addressing (`20_memory.md`, `31_addressing_modes.md`) -/

/-- Two memories of the canonical form that read alike at all `2^24` addresses are equal: the form is canonical (R60; the form is
the model's, log 4). -/
def Obligations.MemoryIsExtensional : Prop :=
  ∀ mem mem' : Memory, Memory.wf mem = true → Memory.wf mem' = true →
    (∀ a : Addr, Memory.read mem a.toNat = Memory.read mem' a.toNat) → mem = mem'

/-- What a store does to each kind of address (R79, R83): RAM reads as what was stored and ROM as before, and a device is given the
byte with no change to the contents of memory. What is where, and what a device answers, is the platform's (D3, log 5, log 24). -/
def Obligations.StoresByKind : Prop :=
  ∀ (s : State) (a b : Addr) (v : Byte), Memory.wf s.mem = true →
    (s.kindAt a = .ram → (s.write a v).read a = v ∧ (s.write a v).deviceLog = s.deviceLog) ∧
    (s.kindAt a = .rom → s.write a v = s) ∧
    (s.kindAt a = .device →
      (s.write a v).deviceLog = (s.deviceTime, .write a v) :: s.deviceLog ∧ (s.write a v).mem = s.mem) ∧
    (b ≠ a → s.kindAt b ≠ .device → (s.write a v).read b = s.read b)

/-- What a read does (R79, R83, R87): one of RAM or ROM answers the contents of memory and changes nothing; one of a device answers
what the platform's function gives of all accesses made so far, and is then among them itself, and changes nothing else. So a second
read of a device may answer otherwise. What is where, and what a device answers, is the platform's (D3, log 5, log 24). -/
def Obligations.ReadsByKind : Prop :=
  ∀ (s : State) (a : Addr),
    (s.kindAt a ≠ .device →
      (s.readByte a).value = Memory.read s.mem a.toNat ∧ (s.readByte a).after = s) ∧
    (s.kindAt a = .device →
      (s.readByte a).value = Config.deviceByte s.deviceLog s.deviceTime a ∧
      (s.readByte a).after = { s with deviceLog := (s.deviceTime, .read a) :: s.deviceLog } ∧
      (s.readByte a).after.read a = Config.deviceByte ((s.deviceTime, .read a) :: s.deviceLog) s.deviceTime a)

/-- The data addresses of `abs`, `abs,X`, `abs,Y`, `long` and `long,X`, as 24-bit sums that carry into the bank and wrap only at
`2^24` (R64, R71, R122 to R124, R142, R143, R152). -/
def Obligations.AbsoluteAndLongAddresses : Prop :=
  ∀ (hhll : Word) (a : Addr) (s : State),
    (eaAbs hhll s).lo.toNat = 65536 * s.DBR.toNat + hhll.toNat ∧
    (eaAbsX hhll s).lo.toNat = (65536 * s.DBR.toNat + hhll.toNat + s.X.toNat) % 2 ^ 24 ∧
    (eaAbsY hhll s).lo.toNat = (65536 * s.DBR.toNat + hhll.toNat + s.Y.toNat) % 2 ^ 24 ∧
    (eaLong a s).lo = a ∧
    (eaLongX a s).lo.toNat = (a.toNat + s.X.toNat) % 2 ^ 24 ∧
    ∀ ea ∈ [eaAbs hhll s, eaAbsX hhll s, eaAbsY hhll s, eaLong a s, eaLongX a s],
      ea.hi.toNat = (ea.lo.toNat + 1) % 2 ^ 24

/-- The data addresses of `dir`, `dir,X` and `dir,Y`: bank 0, inside the page when `e = 1` and `DL = $00` (R131 to R134), and of
PEI, which is new and never wraps in the page (R130, R132). -/
def Obligations.DirectAddresses : Prop :=
  ∀ (ll : Byte) (s : State),
    (s.e = true ∧ s.DL = 0x00#8 →
      (eaDir ll s).lo.toNat = 256 * s.DH.toNat + ll.toNat ∧
      (eaDirX ll s).lo.toNat = 256 * s.DH.toNat + (ll.toNat + s.XL.toNat) % 256 ∧
      (eaDirY ll s).lo.toNat = 256 * s.DH.toNat + (ll.toNat + s.YL.toNat) % 256) ∧
    (¬ (s.e = true ∧ s.DL = 0x00#8) →
      (eaDir ll s).lo.toNat = (s.D.toNat + ll.toNat) % 65536 ∧
      (eaDir ll s).hi.toNat = (s.D.toNat + ll.toNat + 1) % 65536 ∧
      (eaDirX ll s).lo.toNat = (s.D.toNat + ll.toNat + s.X.toNat) % 65536 ∧
      (eaDirX ll s).hi.toNat = (s.D.toNat + ll.toNat + s.X.toNat + 1) % 65536 ∧
      (eaDirY ll s).lo.toNat = (s.D.toNat + ll.toNat + s.Y.toNat) % 65536 ∧
      (eaDirY ll s).hi.toNat = (s.D.toNat + ll.toNat + s.Y.toNat + 1) % 65536) ∧
    (eaDirNew ll s).lo.toNat = (s.D.toNat + ll.toNat) % 65536 ∧
    (eaDirNew ll s).hi.toNat = (s.D.toNat + ll.toNat + 1) % 65536

/-- The indirect modes of the direct page and the stack: where the pointer's bytes lie, that they and nothing else are read, low to
high, and the data at `pointer`, or at `pointer + Y` in 24-bit arithmetic (R135 to R139, R151). The order of the pointer's bytes is
the spec's decision (D2, log 14). -/
def Obligations.IndirectAddresses : Prop :=
  ∀ (ll : Byte) (s : State),
    let near := fun idx : Word => s.wordAfter [] { lo := s.directAddr .old ll idx 0, hi := s.directAddr .old ll idx 1 }
    let p0 := addr 0 (s.D + zext16 ll)
    let p1 := addr 0 (s.D + zext16 ll + 1)
    let p2 := addr 0 (s.D + zext16 ll + 2)
    let far := addr (s.readAfter [.read p0, .read p1] p2) (s.wordAfter [] { lo := p0, hi := p1 })
    let stacked := s.wordAfter [] { lo := addr 0 (s.S + zext16 ll), hi := addr 0 (s.S + zext16 ll + 1) }
    (s.e = true ∧ s.DL = 0x00#8 → ∀ idx k : Word,
      (s.directAddr .old ll idx k).toNat = 256 * s.DH.toNat + (ll.toNat + idx.toNat + k.toNat) % 256) ∧
    (¬ (s.e = true ∧ s.DL = 0x00#8) → ∀ idx k : Word,
      (s.directAddr .old ll idx k).toNat = (s.D.toNat + ll.toNat + idx.toNat + k.toNat) % 65536) ∧
    (eaDirInd ll s).value.lo.toNat = 65536 * s.DBR.toNat + (near 0).toNat ∧
    (eaDirXInd ll s).value.lo.toNat = 65536 * s.DBR.toNat + (near s.X).toNat ∧
    (eaDirIndY ll s).value.lo.toNat = (65536 * s.DBR.toNat + (near 0).toNat + s.Y.toNat) % 2 ^ 24 ∧
    (eaDirLong ll s).value.lo = far ∧
    (eaDirLongY ll s).value.lo.toNat = (far.toNat + s.Y.toNat) % 2 ^ 24 ∧
    (eaStkSIndY ll s).value.lo.toNat = (65536 * s.DBR.toNat + stacked.toNat + s.Y.toNat) % 2 ^ 24 ∧
    (∀ ea ∈ [eaDirInd ll s, eaDirXInd ll s, eaDirIndY ll s, eaDirLong ll s, eaDirLongY ll s, eaStkSIndY ll s],
      ea.value.hi.toNat = (ea.value.lo.toNat + 1) % 2 ^ 24) ∧
    (∀ ea ∈ [eaDirLong ll s, eaDirLongY ll s], ea.after = s.perform [.read p0, .read p1, .read p2]) ∧
    ∀ mode ∈ [DataMode.dirInd ll, .dirXInd ll, .dirIndY ll, .stkSIndY ll],
      (mode.find s).after = s.perform (readsAt (mode.pointer s))

/-- `stk,S` addresses bank 0 with the whole of `S`, in either mode (R150). -/
def Obligations.StackRelativeAddresses : Prop :=
  ∀ (ll : Byte) (s : State),
    (eaStkS ll s).lo.toNat = (s.S.toNat + ll.toNat) % 65536 ∧ (eaStkS ll s).hi.toNat = (s.S.toNat + ll.toNat + 1) % 65536

/-- `StackAddr(k)`: in page 1 for an old instruction in emulation mode, in bank 0 otherwise (R73). -/
def Obligations.StackAddresses : Prop :=
  ∀ (s : State) (age : Age) (k : Word),
    (s.e = true ∧ age = .old → (s.stackAddr age k).toNat = 256 + (s.SL.toNat + k.toNat) % 256) ∧
    (¬ (s.e = true ∧ age = .old) → (s.stackAddr age k).toNat = (s.S.toNat + k.toNat) % 65536)

/-! ### The step (`60_exceptions.md` R440 to R442, `52_stp_wai.md` R382) -/

/-- When the platform's requests call for nothing else, and the `n` bytes at `K:PC`, read in rising order, are an instruction with no
byte over, the step executes that instruction, in the state that the requests and those `n` reads left (R80, R87, R92, R440). That the
bytes are read in rising order, and which bytes belong to an instruction, BRK's signature among those that do not, is the spec's
decision (D2, D7, log 13, log 14). -/
def Obligations.StepRunsDecoded : Prop :=
  ∀ (s : State) (i : Instr) (n : Nat), s.poll.action = .execute →
    decode s.poll.m s.poll.x (s.poll.codeBytes n) = .ok (i, []) →
    step s = exec i (s.poll.perform (s.poll.codeReads n))

/-- The fetch reads exactly the bytes of the instruction it gives, as many as its length, in rising order, and they decode to it
with no byte over; of BRK the opcode alone, of COP and WDM the byte after it too (R80, R87, R91 to R94). The order and BRK's unread
signature are the spec's decisions (D2, D7, log 13, log 14). -/
def Obligations.FetchReadsTheInstruction : Prop :=
  ∀ s : State,
    decode s.m s.x (s.codeBytes (instrLen s.m s.x s.fetch.value)) = .ok (s.fetch.value, []) ∧
    s.fetch.after = s.perform (s.codeReads (instrLen s.m s.x s.fetch.value)) ∧
    (s.read (addr s.K s.PC) = 0x00#8 → s.fetch.value = .brk ∧ s.fetch.after = s.perform [.read (addr s.K s.PC)]) ∧
    (∀ p ∈ [(0x02#8, Instr.cop), (0x42#8, Instr.wdm)], s.read (addr s.K s.PC) = p.1 →
      s.fetch.value = p.2 (s.readAfter [.read (addr s.K s.PC)] (addr s.K (s.PC + 1))) ∧
      s.fetch.after = s.perform [.read (addr s.K s.PC), .read (addr s.K (s.PC + 1))])

/-- No step ends in a fault or a refusal: every state has a next state (R15, R98, R421). -/
def Obligations.EveryStepAnswersNext : Prop :=
  ∀ s : State, ∃ t, step s = .next t

/-- What one entry of `Platform.events` does: the pending set and the list change, the devices' time goes on, and nothing else in
the state changes. Model's choice (D6, log 6; the devices' time is log 24). -/
def Obligations.PollTakesOneEvent : Prop :=
  (∀ s : State, s.events = [] → s.poll = { s with deviceTime := s.deviceTime + 1 }) ∧
  ∀ (s : State) (ev : PlatformEvent) (rest : List PlatformEvent), s.events = ev :: rest →
    s.poll = { s with
      deviceTime := s.deviceTime + 1
      events := rest
      pending :=
        { abort := s.pending.abort || ev.abort
          irq := ev.irqLine
          nmi := s.pending.nmi || ev.nmi
          reset := s.pending.reset || ev.reset } }

/-- While running or waiting, RESET comes before ABORT, ABORT before NMI, NMI before IRQ, only IRQ is masked by `i`, and with none
of them a running machine executes (R440 to R442). Model's choices, the spec's decisions: the order (D9, log 11); that ABORT and
RESET act between instructions only, so that the instruction at `K:PC` is not executed and an ABORT pushes the current `PC` (D11,
log 12); and the pending set that a step looks at and that ends a wait (D6, log 6). -/
def Obligations.RequestsComeFirst : Prop :=
  ∀ s : State, s.poll.run ≠ .stopped →
    (s.poll.pending.reset = true → step s = .next s.poll.resetSequence) ∧
    (∀ k, Takes s.poll k → step s = .next (s.poll.enterInterrupt k s.poll.PC)) ∧
    (s.poll.pending.reset = false → (∀ k, ¬ Takes s.poll k) →
      (s.poll.run = .running → step s = exec s.poll.fetch.value s.poll.fetch.after) ∧
      (s.poll.run = .waiting → s.poll.pending.irq = true →
        step s = .next (s.poll.setRun .running)) ∧
      (s.poll.run = .waiting → s.poll.pending.irq = false → step s = .next s.poll))

/-- Stopped, only RESET is acted on: anything else leaves the state as the requests left it (R381, R382). -/
def Obligations.StoppedUntilReset : Prop :=
  ∀ s : State, s.run = .stopped →
    (s.poll.pending.reset = true → ∃ t, step s = .next t ∧ t.run = .running) ∧
    (s.poll.pending.reset = false → ∃ t, step s = .next t ∧ t = s.poll ∧ t.run = .stopped ∧ t.PC = s.PC ∧ t.mem = s.mem ∧
      t.deviceLog = s.deviceLog)

/-! ### Interrupts and RESET (`60_exceptions.md`, `46_software_interrupts.md`, `70_reset_and_hazards.md`) -/

/-- BRK takes its interrupt with return address `PC + 2`: four bytes and `$00FFE6` in native mode, three bytes with bit 4 of the
pushed `P` set and `$00FFFE` in emulation mode (R281). What is at the frame's and the vector's addresses is the platform's (D3, log 5),
and that the vector is read low byte first is the spec's decision (D2, log 14). -/
def Obligations.BrkTakesItsInterrupt : Prop :=
  ∀ s : State, Memory.wf s.mem = true → ∃ t, exec .brk s = .next t ∧ t.pending = s.pending ∧
    (s.e = false → EntersNative s t (s.PC + 2) 0x00FFE6#24) ∧
    (s.e = true → EntersEmulation s t (s.PC + 2) 0x00FFFE#24 true)

/-- COP does as BRK does, through `$00FFE4` or `$00FFF4`, whatever its signature byte is (R282, R283). Bit 4 of the byte pushed in
emulation mode and the order of the vector's bytes are the spec's decisions (D13, log 10; D2, log 14), and what is at the frame's and
the vector's addresses is the platform's (D3, log 5). -/
def Obligations.CopTakesItsInterrupt : Prop :=
  ∀ (sig : Byte) (s : State), Memory.wf s.mem = true → ∃ t, exec (.cop sig) s = .next t ∧ t.pending = s.pending ∧
    (s.e = false → EntersNative s t (s.PC + 2) 0x00FFE4#24) ∧
    (s.e = true → EntersEmulation s t (s.PC + 2) 0x00FFF4#24 true)

/-- ABORT, NMI and IRQ, when a step takes them: the frame holds the current `PC`, the vector is that of R425, and ABORT and NMI
leave the pending set while IRQ stays (R425, R430, R431, R435, R436, R441). Model's choices, the spec's decisions: the order of
requests and what leaves the pending set (D6, D9, log 6, log 11), the pushed bit 4 of ABORT and NMI (D13, log 10), and that an ABORT
is taken between instructions, pushes the current `PC` and leaves no effect of the instruction at `K:PC` (D11, log 12), and that the
vector is read low byte first (D2, log 14). What is at the frame's and the vector's addresses is the platform's (D3, log 5). -/
def Obligations.HardwareInterruptsEnter : Prop :=
  ∀ (s : State) (k : Interrupt) (native emulation : Addr),
    (k, native, emulation) ∈ [(Interrupt.abort, 0x00FFE8#24, 0x00FFF8#24), (.nmi, 0x00FFEA#24, 0x00FFFA#24),
      (.irq, 0x00FFEE#24, 0x00FFFE#24)] →
    Memory.wf s.mem = true → Takes s.poll k → ∃ t, step s = .next t ∧
      (s.e = false → EntersNative s.poll t s.PC native) ∧
      (s.e = true → EntersEmulation s.poll t s.PC emulation false) ∧
      t.pending = { s.poll.pending with
        abort := s.poll.pending.abort && decide (k ≠ .abort)
        nmi := s.poll.pending.nmi && decide (k ≠ .nmi) }

/-- RTI: `P`, then the address, then in native mode `K`, read in that order from old stack addresses; the address is not incremented;
in emulation mode bits 5 and 4 of `P` stay 1 and `K` is kept; a pulled `x = 1` clears `XH` and `YH` (R285). -/
def Obligations.RtiReturns : Prop :=
  ∀ s : State,
    let a := s.stackAddr .old
    ∃ t, exec .rti s = .next t ∧ t.PC = s.wordAfter [.read (a 1)] { lo := a 2, hi := a 3 } ∧
    (s.e = false → t.P = s.read (a 1) ∧ t.K = s.readAfter [.read (a 1), .read (a 2), .read (a 3)] (a 4) ∧ t.S = s.S + 4) ∧
    (s.e = true → t.P = s.read (a 1) ||| 0x30#8 ∧ t.K = s.K ∧ t.S = word 0x01#8 (s.SL + 3)) ∧
    t.X = indexKept t.x s.X ∧ t.Y = indexKept t.x s.Y ∧
    Frame { K := true, S := true, X := true, Y := true, flags := 0xFF#8,
            accesses := readsAt (if s.e then [a 1, a 2, a 3] else [a 1, a 2, a 3, a 4]) } s t

/-- An interrupt entry followed by RTI restores every register, but in emulation mode `K`, which stays `$00` (R438, R471), where the
frame's bytes are RAM: the address is the return address, `P` and in native mode `K` are as before, memory differs in the frame only,
which is four bytes in native mode and three in emulation mode (R430, R431, R446, R285), and no device is accessed but by the two reads
of the vector, if its bytes are a device's. What is RAM is the platform's (D3, log 5), and the order of those two reads is the spec's
decision (D2, log 14). -/
def Obligations.RtiUndoesEntry : Prop :=
  ∀ (s : State) (k : Interrupt) (ret : Word), Inv s → (∀ a ∈ s.frameAddrs, s.kindAt a = .ram) →
    ∃ t, exec .rti (s.enterInterrupt k ret) = .next t ∧ t.PC = ret ∧ t.P = s.P ∧
      (s.e = false → t.K = s.K) ∧ (s.e = true → t.K = 0x00#8) ∧
      t.C = s.C ∧ t.X = s.X ∧ t.Y = s.Y ∧ t.S = s.S ∧ t.D = s.D ∧ t.DBR = s.DBR ∧ t.e = s.e ∧
      t.deviceLog = s.logged (readsAt [(s.vectorPair (vectorOf k s.e)).lo, (s.vectorPair (vectorOf k s.e)).hi]) ∧
      ∀ a : Addr, a ∉ s.frameAddrs → s.kindAt a ≠ .device → t.read a = s.read a

/-- The RESET step, in any `run` state (R461, R43): emulation mode with what it forces, `i`, `d`, `K`, the vector, read low byte first,
running again, and no memory written. `DBR`, `D` and the unwritten memory are the spec's decision (D4, log 2, log 3), and so is the order
of the two reads (D2, log 14); what answers them is the platform's (D3, log 5); nothing is said of the free values. -/
def Obligations.ResetStep : Prop :=
  ∀ s : State, s.poll.pending.reset = true → ∃ t, step s = .next t ∧
    t.e = true ∧ t.m = true ∧ t.x = true ∧ t.XH = 0x00#8 ∧ t.YH = 0x00#8 ∧ t.SH = 0x01#8 ∧ t.i = true ∧ t.d = false ∧
    t.K = 0x00#8 ∧ t.DBR = 0x00#8 ∧ t.D = 0x0000#16 ∧
    t.PC = s.poll.wordAfter [] (s.vectorPair 0x00FFFC#24) ∧
    t.run = .running ∧ t.pending.reset = false ∧ t.mem = s.mem ∧ t.regions = s.regions ∧
    t.deviceLog = s.poll.logged (readsAt [(s.vectorPair 0x00FFFC#24).lo, (s.vectorPair 0x00FFFC#24).hi]) ∧
    ∀ a : Addr, s.kindAt a ≠ .device → t.read a = s.read a

/-- The state after RESET has the values that R43 gives (`DBR` and `D` by the spec's decision D4, log 2), and its `PC` is the RESET
vector of its own memory. -/
def Obligations.ResetValues : Prop :=
  State.reset.e = true ∧ State.reset.m = true ∧ State.reset.x = true ∧ State.reset.XH = 0x00#8 ∧
  State.reset.YH = 0x00#8 ∧ State.reset.SH = 0x01#8 ∧ State.reset.i = true ∧ State.reset.d = false ∧
  State.reset.K = 0x00#8 ∧ State.reset.DBR = 0x00#8 ∧ State.reset.D = 0x0000#16 ∧ State.reset.run = .running ∧
  State.reset.PC = word (State.reset.read 0x00FFFD#24) (State.reset.read 0x00FFFC#24)

/-! ### Invariants and whole-machine rules (`10_state.md`) -/

/-- The state after RESET satisfies the forcing rule and has memory of the canonical form (R36, R43). -/
def Obligations.ResetSatisfiesInv : Prop := Inv State.reset

/-- Every step keeps the forcing rule and the canonical form of memory (R36, R37). -/
def Obligations.StepKeepsInv : Prop :=
  ∀ s t : State, Inv s → step s = .next t → Inv t

/-- A step changes no byte of ROM and moves no region; it only adds to the accesses that devices have had, each at a device's address and
with the number of the step, which goes on by one (R79, R83, R87; D3, log 5, log 24). -/
def Obligations.OnlyRamChanges : Prop :=
  ∀ s t : State, Memory.wf s.mem = true → step s = .next t →
    (∀ a : Addr, s.kindAt a = .rom → t.read a = s.read a) ∧ t.regions = s.regions ∧ t.deviceTime = s.deviceTime + 1 ∧
    ∃ l, t.deviceLog = l ++ s.deviceLog ∧ ∀ p ∈ l, p.1 = t.deviceTime ∧ s.kindAt p.2.addr = .device

/-- XCE is the only instruction that changes `e`, and besides it only RESET changes it (R33). -/
def Obligations.EmulationFlagWriters : Prop :=
  (∀ (i : Instr) (s t : State), exec i s = .next t → t.e ≠ s.e → i = .xce) ∧
  ∀ s t : State, step s = .next t → t.e ≠ s.e →
    s.poll.action = .reset ∨ (s.poll.action = .execute ∧ s.poll.fetch.value = .xce)

/-- `DBR` is written only by PLB, MVN and MVP (R26), and `D` only by PLD and TCD (R399). -/
def Obligations.DataBankAndDirectWriters : Prop :=
  ∀ (i : Instr) (s t : State), exec i s = .next t →
    (t.DBR ≠ s.DBR → i = .plb ∨ ∃ tt ss, i = .mvn tt ss ∨ i = .mvp tt ss) ∧
    (t.D ≠ s.D → i = .pld ∨ i = .tcd)

/-- `K` is written only by JMP long, JMP [abs], JSL, RTL, RTI in native mode, and interrupts (R27). -/
def Obligations.ProgramBankWriters : Prop :=
  ∀ (i : Instr) (s t : State), exec i s = .next t → t.K ≠ s.K →
    (∃ a, i = .jmpLong a) ∨ (∃ w, i = .jmpAbsLong w) ∨ (∃ a, i = .jsl a) ∨ i = .rtl ∨ (i = .rti ∧ s.e = false) ∨
    i = .brk ∨ ∃ b, i = .cop b

/-- Every instruction but those R31 names ends with `PC` moved by its length, modulo `2^16`; STP and WAI do too (R381, R383). -/
def Obligations.ProgramCounterAdvances : Prop :=
  ∀ (i : Instr) (s t : State), exec i s = .next t → t.PC.toNat ≠ (s.PC.toNat + instrLen s.m s.x i) % 65536 →
    (∃ b, i = .bcc b ∨ i = .bcs b ∨ i = .beq b ∨ i = .bmi b ∨ i = .bne b ∨ i = .bpl b ∨ i = .bra b ∨ i = .bvc b ∨
      i = .bvs b ∨ i = .cop b) ∨
    (∃ w, i = .brl w ∨ i = .jmpAbs w ∨ i = .jmpAbsInd w ∨ i = .jmpAbsXInd w ∨ i = .jmpAbsLong w ∨ i = .jsrAbs w ∨
      i = .jsrAbsXInd w) ∨
    (∃ a, i = .jmpLong a ∨ i = .jsl a) ∨ (∃ tt ss, i = .mvn tt ss ∨ i = .mvp tt ss) ∨
    i = .rtl ∨ i = .rts ∨ i = .brk ∨ i = .rti

/-! ### Arithmetic (`40_adc_sbc.md`, `41_compare_incdec.md`) -/

/-- ADC in its fifteen forms: binary when `d = 0`, decimal on valid BCD when `d = 1`, where `v` may be anything, and on operands that
are not BCD it completes with nothing said of the result and the four flags (R171, R174, R176, R177). What is left open there is
the spec's decision D10 (log 8), and so is the order of the reads, a pointer's bytes low to high, then the data low, then high (D2,
log 14). -/
def Obligations.AdcAdds : Prop :=
  ∀ (o : Operand) (s : State),
    let sum := s.accNat + o.val s + carryNat s.c
    let K := s.mBits / 4
    let decimalSum := bcdNumber K s.accNat + bcdNumber K (o.val s) + carryNat s.c
    ∃ t, exec (adcOf o) s = .next t ∧ t.PC = s.PC + o.len s ∧ (s.m = true → t.B = s.B) ∧
      Frame { C := true, freeCount := s.d, flags := flagsNVZC, accesses := o.accesses s } s t ∧
      (s.d = false →
        t.accNat = sum % 2 ^ s.mBits ∧ (t.c = true ↔ 2 ^ s.mBits ≤ sum) ∧ SignZero s.mBits t.accNat t ∧
        (t.v = true ↔
          OutOfRange s.mBits (signedNat s.mBits s.accNat + signedNat s.mBits (o.val s) + carryNat s.c))) ∧
      (s.d = true → bcdDigits K s.accNat = true → bcdDigits K (o.val s) = true →
        bcdDigits K t.accNat = true ∧ bcdNumber K t.accNat = decimalSum % 10 ^ K ∧
        (t.c = true ↔ 10 ^ K ≤ decimalSum) ∧ SignZero s.mBits t.accNat t)

/-- SBC in its fifteen forms: as ADC, with the carry out meaning that the whole subtraction, borrow included, did not go below 0
(R172, R173, R175, R176, R177). That reading of the carry is the spec's decision (D14, log 15), and so is what is left open when
`d = 1` (D10, log 8), and the order of the reads (D2, log 14). -/
def Obligations.SbcSubtracts : Prop :=
  ∀ (o : Operand) (s : State),
    let diff : Int := s.accNat - o.val s - 1 + carryNat s.c
    let K := s.mBits / 4
    let decimalDiff : Int := bcdNumber K s.accNat - bcdNumber K (o.val s) - 1 + carryNat s.c
    ∃ t, exec (sbcOf o) s = .next t ∧ t.PC = s.PC + o.len s ∧ (s.m = true → t.B = s.B) ∧
      Frame { C := true, freeCount := s.d, flags := flagsNVZC, accesses := o.accesses s } s t ∧
      (s.d = false →
        (t.accNat : Int) = diff % 2 ^ s.mBits ∧ (t.c = true ↔ 0 ≤ diff) ∧ SignZero s.mBits t.accNat t ∧
        (t.v = true ↔
          OutOfRange s.mBits (signedNat s.mBits s.accNat - signedNat s.mBits (o.val s) - 1 + carryNat s.c))) ∧
      (s.d = true → bcdDigits K s.accNat = true → bcdDigits K (o.val s) = true →
        bcdDigits K t.accNat = true ∧ (bcdNumber K t.accNat : Int) = decimalDiff % 10 ^ K ∧
        (t.c = true ↔ 0 ≤ decimalDiff) ∧ SignZero s.mBits t.accNat t)

/-- CMP in its fifteen forms, CPX and CPY in their three (R190 to R193). The order of the reads, a pointer's bytes low to high, then
the data low, then high, is the spec's decision (D2, log 14). -/
def Obligations.ComparesSetFlags : Prop :=
  (∀ o : Operand, ComparesWith (cmpOf o) State.mBits State.accNat o.source o.len) ∧
  (∀ v : Word,
    ComparesWith (.cpxImm v) State.xBits (fun s => s.X.toNat % 2 ^ s.xBits) (indexImm v) (fun s => if s.x then 2 else 3) ∧
    ComparesWith (.cpyImm v) State.xBits (fun s => s.Y.toNat % 2 ^ s.xBits) (indexImm v) (fun s => if s.x then 2 else 3) ∧
    ComparesWith (.cpxAbs v) State.xBits (fun s => s.X.toNat % 2 ^ s.xBits) (indexAt (eaAbs v)) (fun _ => 3) ∧
    ComparesWith (.cpyAbs v) State.xBits (fun s => s.Y.toNat % 2 ^ s.xBits) (indexAt (eaAbs v)) (fun _ => 3)) ∧
  ∀ ll : Byte,
    ComparesWith (.cpxDir ll) State.xBits (fun s => s.X.toNat % 2 ^ s.xBits) (indexAt (eaDir ll)) (fun _ => 2) ∧
    ComparesWith (.cpyDir ll) State.xBits (fun s => s.Y.toNat % 2 ^ s.xBits) (indexAt (eaDir ll)) (fun _ => 2)

/-- DEC and INC of memory: one less or one more modulo `2^M`, written back where it was read (R194, R197, R200). What is there is
the platform's (D3, log 5), and the order low, then high is the spec's decision (D2, log 14). -/
def Obligations.IncDecMemory : Prop :=
  ∀ mode : MemMode,
    ReplacesData (incOf mode) (fun n v => (v + 1) % 2 ^ n) mode.ea mode.len ∧
    ReplacesData (decOf mode) (fun n v => (v + 2 ^ n - 1) % 2 ^ n) mode.ea mode.len

/-- DEC and INC of the accumulator, DEX, DEY, INX and INY (R194 to R200): modulo `2^M` or `2^XW`; `B` is kept when `m = 1`. -/
def Obligations.IncDecRegisters : Prop :=
  ∀ s : State,
    (∃ t, exec .incAcc s = .next t ∧ t.accNat = (s.accNat + 1) % 2 ^ s.mBits ∧ (s.m = true → t.B = s.B) ∧
      SignZero s.mBits t.accNat t ∧ t.PC = s.PC + 1 ∧ Frame { C := true, flags := flagsNZ } s t) ∧
    (∃ t, exec .decAcc s = .next t ∧ t.accNat = (s.accNat + 2 ^ s.mBits - 1) % 2 ^ s.mBits ∧ (s.m = true → t.B = s.B) ∧
      SignZero s.mBits t.accNat t ∧ t.PC = s.PC + 1 ∧ Frame { C := true, flags := flagsNZ } s t) ∧
    (∃ t, exec .inx s = .next t ∧ t.X.toNat = (s.X.toNat + 1) % 2 ^ s.xBits ∧ SignZero s.xBits t.X.toNat t ∧
      t.PC = s.PC + 1 ∧ Frame { X := true, flags := flagsNZ } s t) ∧
    (∃ t, exec .dex s = .next t ∧ t.X.toNat = (s.X.toNat + 2 ^ s.xBits - 1) % 2 ^ s.xBits ∧ SignZero s.xBits t.X.toNat t ∧
      t.PC = s.PC + 1 ∧ Frame { X := true, flags := flagsNZ } s t) ∧
    (∃ t, exec .iny s = .next t ∧ t.Y.toNat = (s.Y.toNat + 1) % 2 ^ s.xBits ∧ SignZero s.xBits t.Y.toNat t ∧
      t.PC = s.PC + 1 ∧ Frame { Y := true, flags := flagsNZ } s t) ∧
    (∃ t, exec .dey s = .next t ∧ t.Y.toNat = (s.Y.toNat + 2 ^ s.xBits - 1) % 2 ^ s.xBits ∧ SignZero s.xBits t.Y.toNat t ∧
      t.PC = s.PC + 1 ∧ Frame { Y := true, flags := flagsNZ } s t)

/-! ### Logic, bit tests, shifts (`42_logic_bit.md`, `43_shifts.md`) -/

/-- AND, EOR and ORA in their fifteen forms (R210 to R213). The order of the reads, a pointer's bytes low to high, then the data low,
then high, is the spec's decision (D2, log 14). -/
def Obligations.LogicOnAccumulator : Prop :=
  ∀ (o : Operand) (s : State), ∀ p ∈ [(andOf o, s.accNat &&& o.val s), (eorOf o, s.accNat ^^^ o.val s),
      (oraOf o, s.accNat ||| o.val s)],
    ∃ t, exec p.1 s = .next t ∧ t.accNat = p.2 ∧ (s.m = true → t.B = s.B) ∧ SignZero s.mBits p.2 t ∧
      t.PC = s.PC + o.len s ∧ Frame { C := true, flags := flagsNZ, accesses := o.accesses s } s t

/-- BIT: `z` from the And in every form; `n` and `v` the two top bits of the data, but untouched by the immediate form (R214).
That the data's bytes are read low, then high is the spec's decision (D2, log 14). -/
def Obligations.BitTestsData : Prop :=
  (∀ (mode : MemMode) (s : State), ∃ t, exec (bitOf mode) s = .next t ∧
    (t.z = true ↔ s.accNat &&& s.dataNat s.mBits (mode.ea s) = 0) ∧
    t.n = (s.dataNat s.mBits (mode.ea s)).testBit (s.mBits - 1) ∧
    t.v = (s.dataNat s.mBits (mode.ea s)).testBit (s.mBits - 2) ∧
    t.PC = s.PC + mode.len ∧
    Frame { flags := flagsNVZ, accesses := readsAt (dataBytes s.mBits (mode.ea s)) } s t) ∧
  ∀ (v : Word) (s : State), ∃ t, exec (.bitImm v) s = .next t ∧
    (t.z = true ↔ s.accNat &&& (v.toNat % 2 ^ s.mBits) = 0) ∧
    t.PC = s.PC + (if s.m then 2 else 3) ∧ Frame { flags := flagZ } s t

/-- TRB clears and TSB sets the data's bits that are ones in the accumulator; `z` is that of the And with the data as read
(R215 to R217). What is at the data's addresses is the platform's (D3, log 5), and the order low, then high is the spec's decision
(D2, log 14). -/
def Obligations.TrbTsbStore : Prop :=
  ∀ (s : State) (ll : Byte) (hhll : Word), Memory.wf s.mem = true →
    ∀ p ∈ [(Instr.trbDir ll, eaDir ll s, (2 : Word), false), (.trbAbs hhll, eaAbs hhll s, 3, false),
      (.tsbDir ll, eaDir ll s, 2, true), (.tsbAbs hhll, eaAbs hhll s, 3, true)],
    ∃ t r, exec p.1 s = .next t ∧
      (∀ k, r.testBit k = if s.accNat.testBit k then p.2.2.2 else (s.dataNat s.mBits p.2.1).testBit k) ∧
      (t.z = true ↔ s.accNat &&& s.dataNat s.mBits p.2.1 = 0) ∧
      t.PC = s.PC + p.2.2.1 ∧
      Frame { flags := flagZ, accesses := readsAt (dataBytes s.mBits p.2.1) ++ dataWrites s.mBits p.2.1 r } s t

/-- ASL, LSR, ROL and ROR of the accumulator (R230 to R235): the bit shifted out goes to `c`, the rotates take in the old `c`. -/
def Obligations.ShiftsOfAccumulator : Prop :=
  ShiftsAcc .aslAcc (fun n _ v => 2 * v % 2 ^ n) (fun n v => 2 ^ (n - 1) ≤ v) ∧
  ShiftsAcc .lsrAcc (fun _ _ v => v / 2) (fun _ v => v % 2 = 1) ∧
  ShiftsAcc .rolAcc (fun n c v => 2 * v % 2 ^ n + c) (fun n v => 2 ^ (n - 1) ≤ v) ∧
  ShiftsAcc .rorAcc (fun n c v => v / 2 + c * 2 ^ (n - 1)) (fun _ v => v % 2 = 1)

/-- ASL, LSR, ROL and ROR of memory in their four modes (R230 to R235). What is at the data's addresses is the platform's (D3,
log 5), and the order low, then high is the spec's decision (D2, log 14). -/
def Obligations.ShiftsOfMemory : Prop :=
  ∀ mode : MemMode,
    ShiftsData (aslOf mode) (fun n _ v => 2 * v % 2 ^ n) (fun n v => 2 ^ (n - 1) ≤ v) mode.ea mode.len ∧
    ShiftsData (lsrOf mode) (fun _ _ v => v / 2) (fun _ v => v % 2 = 1) mode.ea mode.len ∧
    ShiftsData (rolOf mode) (fun n c v => 2 * v % 2 ^ n + c) (fun n v => 2 ^ (n - 1) ≤ v) mode.ea mode.len ∧
    ShiftsData (rorOf mode) (fun n c v => v / 2 + c * 2 ^ (n - 1)) (fun _ v => v % 2 = 1) mode.ea mode.len

/-! ### Control flow (`44_branches.md`, `45_jumps_calls.md`) -/

/-- The nine 8-bit branches: their conditions, their signed targets modulo `2^16`, and no change but to `PC` (R240 to R250). -/
def Obligations.BranchesFollowFlags : Prop :=
  BranchesOn .bcc (fun s => !s.c) ∧ BranchesOn .bcs State.c ∧ BranchesOn .beq State.z ∧ BranchesOn .bmi State.n ∧
  BranchesOn .bne (fun s => !s.z) ∧ BranchesOn .bpl (fun s => !s.n) ∧ BranchesOn .bra (fun _ => true) ∧
  BranchesOn .bvc (fun s => !s.v) ∧ BranchesOn .bvs State.v

/-- BRL and the five forms of JMP: the destination, its bank, and no change but to `PC` and `K` (R251, R261 to R265). That a pointer's
bytes are read low to high is the spec's decision (D2, log 14). -/
def Obligations.JumpsGoToTargets : Prop :=
  (∀ hhll : Word,
    let p0 : Addr := addr 0 hhll
    let p1 : Addr := addr 0 (hhll + 1)
    let p2 : Addr := addr 0 (hhll + 2)
    JumpsTo (.brl hhll) State.K (fun s => BitVec.ofNat 16 (s.PC.toNat + 3 + hhll.toNat)) (fun _ => {}) ∧
    JumpsTo (.jmpAbs hhll) State.K (fun _ => hhll) (fun _ => {}) ∧
    JumpsTo (.jmpAbsInd hhll) State.K (fun s => s.wordAfter [] { lo := p0, hi := p1 })
      (fun _ => { accesses := readsAt [p0, p1] }) ∧
    JumpsTo (.jmpAbsXInd hhll) State.K
      (fun s => s.wordAfter [] { lo := addr s.K (hhll + s.X), hi := addr s.K (hhll + s.X + 1) })
      (fun s => { accesses := readsAt [addr s.K (hhll + s.X), addr s.K (hhll + s.X + 1)] }) ∧
    JumpsTo (.jmpAbsLong hhll) (fun s => s.readAfter (readsAt [p0, p1]) p2) (fun s => s.wordAfter [] { lo := p0, hi := p1 })
      (fun _ => { K := true, accesses := readsAt [p0, p1, p2] })) ∧
  ∀ (hh : Byte) (mmll : Word), JumpsTo (.jmpLong (addr hh mmll)) (fun _ => hh) (fun _ => mmll) (fun _ => { K := true })

/-- JSR (both forms) and JSL: the bytes pushed, old or new, the new `S`, and the destination (R266 to R268). That JSR (abs,X) pushes
before it reads its pointer, low byte first, is the spec's decision (D2, log 14), and so is which of the three is old (D12, log 9); what
is at the addresses is the platform's (D3, log 5). -/
def Obligations.CallsPushAndJump : Prop :=
  ∀ s : State, Memory.wf s.mem = true →
    (∀ hhll : Word, ∃ t, exec (.jsrAbs hhll) s = .next t ∧ t.S = s.stackMoved (-2) ∧ t.PC = hhll ∧
      Frame { S := true,
              accesses := [.write (s.stackAddr .old 0) (hi8 (s.PC + 2)), .write (s.stackAddr .old (-1)) (lo8 (s.PC + 2))] } s t) ∧
    (∀ hhll : Word,
      let pushes : List Access := [.write (addr 0 s.S) (hi8 (s.PC + 2)), .write (addr 0 (s.S - 1)) (lo8 (s.PC + 2))]
      let pointer : DataAddr := { lo := addr s.K (hhll + s.X), hi := addr s.K (hhll + s.X + 1) }
      ∃ t, exec (.jsrAbsXInd hhll) s = .next t ∧ t.S = s.stackMoved (-2) ∧ t.PC = s.wordAfter pushes pointer ∧
      Frame { S := true, accesses := pushes ++ readsAt [pointer.lo, pointer.hi] } s t) ∧
    (∀ (hh : Byte) (mmll : Word), ∃ t, exec (.jsl (addr hh mmll)) s = .next t ∧
      t.S = s.stackMoved (-3) ∧ t.K = hh ∧ t.PC = mmll ∧
      Frame { K := true, S := true,
              accesses := [.write (addr 0 s.S) s.K, .write (addr 0 (s.S - 1)) (hi8 (s.PC + 3)),
                .write (addr 0 (s.S - 2)) (lo8 (s.PC + 3))] } s t)

/-- RTS and RTL: the address pulled, low byte first, plus one modulo `2^16`, and for RTL the bank after it (R269, R270). That RTS is old
and RTL new is the spec's decision (D12, log 9). -/
def Obligations.ReturnsPullAndIncrement : Prop :=
  ∀ s : State,
    (∃ t, exec .rts s = .next t ∧
      t.PC.toNat = ((s.wordAfter [] { lo := s.stackAddr .old 1, hi := s.stackAddr .old 2 }).toNat + 1) % 65536 ∧
      t.S = s.stackMoved 2 ∧ Frame { S := true, accesses := readsAt [s.stackAddr .old 1, s.stackAddr .old 2] } s t) ∧
    (∃ t, exec .rtl s = .next t ∧
      t.PC.toNat = ((s.wordAfter [] { lo := addr 0 (s.S + 1), hi := addr 0 (s.S + 2) }).toNat + 1) % 65536 ∧
      t.K = s.readAfter (readsAt [addr 0 (s.S + 1), addr 0 (s.S + 2)]) (addr 0 (s.S + 3)) ∧ t.S = s.stackMoved 3 ∧
      Frame { K := true, S := true, accesses := readsAt [addr 0 (s.S + 1), addr 0 (s.S + 2), addr 0 (s.S + 3)] } s t)

/-- A return undoes its call where the bytes pushed are RAM: after JSR and RTS, and after JSL and RTL where the stack does not leave
page 1 in emulation mode (R472), `K:PC` is the next instruction and `S` is as before (R260, R266, R267, R269, R270). That JSR abs and
RTS are old, so that they agree at the ends of page 1, and JSL and RTL new, which the bound on `SL` is for, is the spec's decision
(D12, log 9); what is RAM is the platform's (D3, log 5). -/
def Obligations.ReturnUndoesCall : Prop :=
  (∀ (s : State) (hhll : Word), Inv s →
    (∀ a ∈ [s.stackAddr .old 0, s.stackAddr .old (-1)], s.kindAt a = .ram) →
    ∃ t u, exec (.jsrAbs hhll) s = .next t ∧ exec .rts t = .next u ∧ u.PC = s.PC + 3 ∧ u.K = s.K ∧ u.S = s.S ∧ u.P = s.P) ∧
  ∀ (s : State) (a : Addr), Inv s → (s.e = false ∨ 3 ≤ s.SL.toNat) →
    (∀ b ∈ [addr 0 s.S, addr 0 (s.S - 1), addr 0 (s.S - 2)], s.kindAt b = .ram) →
    ∃ t u, exec (.jsl a) s = .next t ∧ exec .rtl t = .next u ∧ u.PC = s.PC + 4 ∧ u.K = s.K ∧ u.S = s.S ∧ u.P = s.P

/-! ### Flags, loads, stores (`47_flag_instr.md`, `48_load_store.md`) -/

/-- The seven single-flag instructions (R290 to R297), and REP and SEP under the forcing rule (R298, R299, R36). -/
def Obligations.FlagInstructions : Prop :=
  PutsFlag .clc 0x01#8 false ∧ PutsFlag .cld 0x08#8 false ∧ PutsFlag .cli 0x04#8 false ∧ PutsFlag .clv 0x40#8 false ∧
  PutsFlag .sec 0x01#8 true ∧ PutsFlag .sed 0x08#8 true ∧ PutsFlag .sei 0x04#8 true ∧
  ∀ (mask : Byte) (s : State), ∀ p ∈ [(Instr.rep mask, s.P &&& ~~~mask), (.sep mask, s.P ||| mask)],
    ∃ t, exec p.1 s = .next t ∧ t.P = (if s.e then p.2 ||| 0x30#8 else p.2) ∧
      t.X = indexKept t.x s.X ∧ t.Y = indexKept t.x s.Y ∧ t.PC = s.PC + 2 ∧
      Frame { X := true, Y := true, flags := 0xFF#8 } s t

/-- LDA in its fifteen forms: the data of `M` bits, `B` kept when `m = 1`, `n` and `z` from the data (R310, R311, R318). The order of
the reads, a pointer's bytes low to high, then the data low, then high, is the spec's decision (D2, log 14). -/
def Obligations.LdaLoads : Prop :=
  ∀ (o : Operand) (s : State), ∃ t, exec (ldaOf o) s = .next t ∧ t.accNat = o.val s ∧ (s.m = true → t.B = s.B) ∧
    SignZero s.mBits (o.val s) t ∧ t.PC = s.PC + o.len s ∧ Frame { C := true, flags := flagsNZ, accesses := o.accesses s } s t

/-- LDX and LDY in their five forms each: the data of `XW` bits, zero-extended, `n` and `z` from it (R310, R312, R313, R318).
That the data's bytes are read low, then high is the spec's decision (D2, log 14). -/
def Obligations.LdxLdyLoad : Prop :=
  (∀ v : Word,
    LoadsIndex (.ldxImm v) State.X { X := true } (indexImm v) (fun s => if s.x then 2 else 3) ∧
    LoadsIndex (.ldyImm v) State.Y { Y := true } (indexImm v) (fun s => if s.x then 2 else 3) ∧
    LoadsIndex (.ldxAbs v) State.X { X := true } (indexAt (eaAbs v)) (fun _ => 3) ∧
    LoadsIndex (.ldyAbs v) State.Y { Y := true } (indexAt (eaAbs v)) (fun _ => 3) ∧
    LoadsIndex (.ldxAbsY v) State.X { X := true } (indexAt (eaAbsY v)) (fun _ => 3) ∧
    LoadsIndex (.ldyAbsX v) State.Y { Y := true } (indexAt (eaAbsX v)) (fun _ => 3)) ∧
  ∀ ll : Byte,
    LoadsIndex (.ldxDir ll) State.X { X := true } (indexAt (eaDir ll)) (fun _ => 2) ∧
    LoadsIndex (.ldyDir ll) State.Y { Y := true } (indexAt (eaDir ll)) (fun _ => 2) ∧
    LoadsIndex (.ldxDirY ll) State.X { X := true } (indexAt (eaDirY ll)) (fun _ => 2) ∧
    LoadsIndex (.ldyDirX ll) State.Y { Y := true } (indexAt (eaDirX ll)) (fun _ => 2)

/-- STA in its fourteen forms, STZ in its four, STX and STY in their three: the number stored at the mode's addresses, and nothing
else, no flag included (R310, R314 to R318). What is there is the platform's (D3, log 5), and the order, a pointer's bytes low to high,
then the data low, then high, is the spec's decision (D2, log 14). -/
def Obligations.StoresStore : Prop :=
  (∀ mode : DataMode, StoresAt (staOf mode) State.mBits State.accNat mode.pointer mode.ea mode.len) ∧
  (∀ mode : MemMode, StoresAt (stzOf mode) State.mBits (fun _ => 0) (fun _ => []) mode.ea mode.len) ∧
  (∀ v : Word,
    StoresAt (.stxAbs v) State.xBits (fun s => s.X.toNat % 2 ^ s.xBits) (fun _ => []) (eaAbs v) 3 ∧
    StoresAt (.styAbs v) State.xBits (fun s => s.Y.toNat % 2 ^ s.xBits) (fun _ => []) (eaAbs v) 3) ∧
  ∀ ll : Byte,
    StoresAt (.stxDir ll) State.xBits (fun s => s.X.toNat % 2 ^ s.xBits) (fun _ => []) (eaDir ll) 2 ∧
    StoresAt (.styDir ll) State.xBits (fun s => s.Y.toNat % 2 ^ s.xBits) (fun _ => []) (eaDir ll) 2 ∧
    StoresAt (.stxDirY ll) State.xBits (fun s => s.X.toNat % 2 ^ s.xBits) (fun _ => []) (eaDirY ll) 2 ∧
    StoresAt (.styDirX ll) State.xBits (fun s => s.Y.toNat % 2 ^ s.xBits) (fun _ => []) (eaDirX ll) 2

/-! ### Block moves (`49_block_move.md`) -/

/-- One execution of MVN or MVP reads one byte and then writes it, sets `DBR`, counts all of `C` down, steps `X` and `Y` under the forcing
rule, and goes on only when `C` has become `$FFFF` (R331, R332, R334). What is at the addresses is the platform's (D3, log 5). -/
def Obligations.BlockMoveMovesOneByte : Prop :=
  ∀ (tt ss : Byte) (s : State), Memory.wf s.mem = true →
    ∀ p ∈ [(Instr.mvn tt ss, (1 : Word)), (.mvp tt ss, -1)],
    ∃ t, exec p.1 s = .next t ∧ t.DBR = tt ∧ t.C = s.C - 1 ∧
      t.X = indexKept s.x (s.X + p.2) ∧ t.Y = indexKept s.x (s.Y + p.2) ∧
      t.PC = (if t.C = 0xFFFF#16 then s.PC + 3 else s.PC) ∧
      Frame { C := true, DBR := true, X := true, Y := true,
              accesses := [.read (addr ss s.X), .write (addr tt s.Y) (s.read (addr ss s.X))] } s t

/-- A whole move, with index registers of 16 bits or of 8, which stay in page 0 of their banks (R336): after `n` bytes, `n` at most
`C`, the instruction stands at the same `PC`; after `C + 1` bytes `C` is `$FFFF`, `X` and `Y` have moved by the number of bytes, `DBR`
is the destination bank and `PC` is past it; no byte has changed but the destination's; and where no byte is read after it has been
written, as between different banks or in blocks that do not overlap (R337), and no device is read or written, every destination
byte in RAM holds what its source byte held (R330 to R337). What is RAM, ROM or a device is the platform's (D3, log 5). -/
def Obligations.BlockMoveMovesWholeBlock : Prop :=
  ∀ (tt ss : Byte) (s : State), Inv s →
    ∀ p ∈ [(Instr.mvn tt ss, (1 : Word)), (.mvp tt ss, -1)],
    let dest := fun k : Nat => addr tt (indexKept s.x (s.Y + p.2 * BitVec.ofNat 16 k))
    let src := fun k : Nat => addr ss (indexKept s.x (s.X + p.2 * BitVec.ofNat 16 k))
    (∀ n, n ≤ s.C.toNat → ∃ t, repeatExec p.1 n s = .next t ∧ t.PC = s.PC ∧ t.C.toNat = s.C.toNat - n) ∧
    ∃ t, repeatExec p.1 (s.C.toNat + 1) s = .next t ∧ t.C = 0xFFFF#16 ∧
      t.X = indexKept s.x (s.X + p.2 * (s.C + 1)) ∧ t.Y = indexKept s.x (s.Y + p.2 * (s.C + 1)) ∧
      t.DBR = tt ∧ t.PC = s.PC + 3 ∧ t.P = s.P ∧
      (∀ a : Addr, (∀ k : Nat, k ≤ s.C.toNat → a ≠ dest k) → s.kindAt a ≠ .device → t.read a = s.read a) ∧
      ((∀ j k : Nat, j < k → k ≤ s.C.toNat → dest j ≠ src k) →
        (∀ k : Nat, k ≤ s.C.toNat → s.kindAt (dest k) ≠ .device ∧ s.kindAt (src k) ≠ .device) →
        ∀ k : Nat, k ≤ s.C.toNat → t.read (dest k) = if s.kindAt (dest k) = .rom then s.read (dest k) else s.read (src k))

/-! ### NOP, WDM, STP, WAI (`50_nop_wdm.md`, `52_stp_wai.md`) -/

/-- NOP and WDM change nothing but `PC`, by one and by two; STP and WAI change nothing but `PC`, by one, and `run` (R340 to R342,
R380, R381, R383). -/
def Obligations.IdleInstructions : Prop :=
  ∀ (b : Byte) (s : State),
    (∃ t, exec .nop s = .next t ∧ t.PC = s.PC + 1 ∧ t.P = s.P ∧ t.mem = s.mem ∧ Frame {} s t) ∧
    (∃ t, exec (.wdm b) s = .next t ∧ t.PC = s.PC + 2 ∧ t.P = s.P ∧ t.mem = s.mem ∧ Frame {} s t) ∧
    (∃ t, exec .stp s = .next t ∧ t.PC = s.PC + 1 ∧ t.run = .stopped ∧ Frame { run := true } s t) ∧
    (∃ t, exec .wai s = .next t ∧ t.PC = s.PC + 1 ∧ t.run = .waiting ∧ Frame { run := true } s t)

/-! ### The stack instructions (`51_stack.md`) -/

/-- The ten pushes: what is pushed where, the new `S`, and nothing else (R345 to R352, R358 to R362, R366). Old and new where the
source does not say are the spec's decision (D12, log 9), and so is the order in which PEI reads its two bytes (D2, log 14); what is at
the addresses is the platform's (D3, log 5). -/
def Obligations.PushesPush : Prop :=
  PushesRegister .pha State.m State.C ∧ PushesRegister .phx State.x State.X ∧ PushesRegister .phy State.x State.Y ∧
  PushesByte .phb .new State.DBR ∧ PushesByte .phk .new State.K ∧ PushesByte .php .old State.P ∧
  PushesWord .phd .new (fun _ => []) State.D 1 ∧
  (∀ v : Word, PushesWord (.pea v) .new (fun _ => []) (fun _ => v) 3) ∧
  (∀ ll : Byte, PushesWord (.pei ll) .new
    (fun s => readsAt [addr 0 (s.D + zext16 ll), addr 0 (s.D + zext16 ll + 1)])
    (fun s => s.wordAfter [] { lo := addr 0 (s.D + zext16 ll), hi := addr 0 (s.D + zext16 ll + 1) }) 2) ∧
  ∀ v : Word, PushesWord (.per v) .new (fun _ => []) (fun s => BitVec.ofNat 16 (s.PC.toNat + 3 + v.toNat)) 3

/-- The six pulls: what is pulled from where, the flags, and the new `S`; PLP pulls all of `P` under the forcing rule (R353 to R355,
R359, R363, R367 to R369). -/
def Obligations.PullsPull : Prop :=
  (∀ s t : State, exec .pla s = .next t → s.m = true → t.B = s.B) ∧
  PullsInto .pla .old State.mBits State.accNat { C := true } ∧
  PullsInto .plx .old State.xBits (fun t => t.X.toNat) { X := true } ∧
  PullsInto .ply .old State.xBits (fun t => t.Y.toNat) { Y := true } ∧
  PullsInto .plb .new (fun _ => 8) (fun t => t.DBR.toNat) { DBR := true } ∧
  PullsInto .pld .new (fun _ => 16) (fun t => t.D.toNat) { D := true } ∧
  ∀ s : State, ∃ t, exec .plp s = .next t ∧
    t.P = (if s.e then s.read (s.stackAddr .old 1) ||| 0x30#8 else s.read (s.stackAddr .old 1)) ∧
    t.X = indexKept t.x s.X ∧ t.Y = indexKept t.x s.Y ∧ t.S = s.stackMoved 1 ∧ t.PC = s.PC + 1 ∧
    Frame { S := true, X := true, Y := true, flags := 0xFF#8, accesses := [.read (s.stackAddr .old 1)] } s t

/-! ### Transfers and exchanges (`53_transfers.md`) -/

/-- The transfers that set flags, and XBA: the width is the destination's, and the flags are those of what was transferred (R390 to
R394, R396 to R400, R402 to R404). -/
def Obligations.TransfersCopy : Prop :=
  CopiesInto .tax State.X { X := true } State.xBits (fun s => indexKept s.x s.C) ∧
  CopiesInto .tay State.Y { Y := true } State.xBits (fun s => indexKept s.x s.C) ∧
  CopiesInto .tsx State.X { X := true } State.xBits (fun s => indexKept s.x s.S) ∧
  CopiesInto .tyx State.X { X := true } State.xBits (fun s => indexKept s.x s.Y) ∧
  CopiesInto .txy State.Y { Y := true } State.xBits (fun s => indexKept s.x s.X) ∧
  CopiesInto .txa State.C { C := true } State.mBits (fun s => if s.m then word s.B s.XL else s.X) ∧
  CopiesInto .tya State.C { C := true } State.mBits (fun s => if s.m then word s.B s.YL else s.Y) ∧
  CopiesInto .tcd State.D { D := true } (fun _ => 16) State.C ∧
  CopiesInto .tdc State.C { C := true } (fun _ => 16) State.D ∧
  CopiesInto .tsc State.C { C := true } (fun _ => 16) State.S ∧
  CopiesInto .xba State.C { C := true } (fun _ => 8) (fun s => word s.A s.B)

/-- TXS and TCS copy 16 bits into `S` without a flag, `SH` staying `$01` when `e = 1` (R395, R401); XCE swaps `c` and `e` under the
forcing rule: `m`, `x`, `SH`, `XH`, `YH` are forced on entering emulation mode, and leaving it clears nothing (R406). -/
def Obligations.StackTransfersAndXce : Prop :=
  ∀ s : State,
    (∃ t, exec .txs s = .next t ∧ t.S = (if s.e then word 0x01#8 s.XL else s.X) ∧ t.PC = s.PC + 1 ∧
      Frame { S := true } s t) ∧
    (∃ t, exec .tcs s = .next t ∧ t.S = (if s.e then word 0x01#8 s.A else s.C) ∧ t.PC = s.PC + 1 ∧
      Frame { S := true } s t) ∧
    (∃ t, exec .xce s = .next t ∧ t.e = s.c ∧ t.c = s.e ∧ t.m = (s.m || s.c) ∧ t.x = (s.x || s.c) ∧
      t.S = (if s.c then word 0x01#8 s.SL else s.S) ∧
      t.X = indexKept t.x s.X ∧ t.Y = indexKept t.x s.Y ∧ t.PC = s.PC + 1 ∧
      Frame { S := true, X := true, Y := true, e := true, flags := 0x31#8 } s t)
end

