-- ==== Sys2Proof/Laws/State.lean ====
section
/-! SUPPORT. One lemma for each field under each update of `Machine/Registers.lean`, so that no proof unfolds a record update;
then every flag under every flag update, and memory and code under register updates. -/

namespace Sys2Proof.Machine

/-! ### Plain writes -/

@[simp] theorem State.setC_C (s : State) (v : Word) : (s.setC v).C = v := rfl
@[simp] theorem State.setC_DBR (s : State) (v : Word) : (s.setC v).DBR = s.DBR := rfl
@[simp] theorem State.setC_D (s : State) (v : Word) : (s.setC v).D = s.D := rfl
@[simp] theorem State.setC_K (s : State) (v : Word) : (s.setC v).K = s.K := rfl
@[simp] theorem State.setC_PC (s : State) (v : Word) : (s.setC v).PC = s.PC := rfl
@[simp] theorem State.setC_P (s : State) (v : Word) : (s.setC v).P = s.P := rfl
@[simp] theorem State.setC_S (s : State) (v : Word) : (s.setC v).S = s.S := rfl
@[simp] theorem State.setC_X (s : State) (v : Word) : (s.setC v).X = s.X := rfl
@[simp] theorem State.setC_Y (s : State) (v : Word) : (s.setC v).Y = s.Y := rfl
@[simp] theorem State.setC_e (s : State) (v : Word) : (s.setC v).e = s.e := rfl
@[simp] theorem State.setC_run (s : State) (v : Word) : (s.setC v).run = s.run := rfl
@[simp] theorem State.setC_pending (s : State) (v : Word) : (s.setC v).pending = s.pending := rfl
@[simp] theorem State.setC_events (s : State) (v : Word) : (s.setC v).events = s.events := rfl
@[simp] theorem State.setC_vectorMap (s : State) (v : Word) : (s.setC v).vectorMap = s.vectorMap := rfl
@[simp] theorem State.setC_freeCount (s : State) (v : Word) : (s.setC v).freeCount = s.freeCount := rfl
@[simp] theorem State.setC_regions (s : State) (v : Word) : (s.setC v).regions = s.regions := rfl
@[simp] theorem State.setC_deviceLog (s : State) (v : Word) : (s.setC v).deviceLog = s.deviceLog := rfl
@[simp] theorem State.setC_deviceTime (s : State) (v : Word) : (s.setC v).deviceTime = s.deviceTime := rfl
@[simp] theorem State.setC_mem (s : State) (v : Word) : (s.setC v).mem = s.mem := rfl
@[simp] theorem State.setDBR_C (s : State) (v : Byte) : (s.setDBR v).C = s.C := rfl
@[simp] theorem State.setDBR_DBR (s : State) (v : Byte) : (s.setDBR v).DBR = v := rfl
@[simp] theorem State.setDBR_D (s : State) (v : Byte) : (s.setDBR v).D = s.D := rfl
@[simp] theorem State.setDBR_K (s : State) (v : Byte) : (s.setDBR v).K = s.K := rfl
@[simp] theorem State.setDBR_PC (s : State) (v : Byte) : (s.setDBR v).PC = s.PC := rfl
@[simp] theorem State.setDBR_P (s : State) (v : Byte) : (s.setDBR v).P = s.P := rfl
@[simp] theorem State.setDBR_S (s : State) (v : Byte) : (s.setDBR v).S = s.S := rfl
@[simp] theorem State.setDBR_X (s : State) (v : Byte) : (s.setDBR v).X = s.X := rfl
@[simp] theorem State.setDBR_Y (s : State) (v : Byte) : (s.setDBR v).Y = s.Y := rfl
@[simp] theorem State.setDBR_e (s : State) (v : Byte) : (s.setDBR v).e = s.e := rfl
@[simp] theorem State.setDBR_run (s : State) (v : Byte) : (s.setDBR v).run = s.run := rfl
@[simp] theorem State.setDBR_pending (s : State) (v : Byte) : (s.setDBR v).pending = s.pending := rfl
@[simp] theorem State.setDBR_events (s : State) (v : Byte) : (s.setDBR v).events = s.events := rfl
@[simp] theorem State.setDBR_vectorMap (s : State) (v : Byte) : (s.setDBR v).vectorMap = s.vectorMap := rfl
@[simp] theorem State.setDBR_freeCount (s : State) (v : Byte) : (s.setDBR v).freeCount = s.freeCount := rfl
@[simp] theorem State.setDBR_regions (s : State) (v : Byte) : (s.setDBR v).regions = s.regions := rfl
@[simp] theorem State.setDBR_deviceLog (s : State) (v : Byte) : (s.setDBR v).deviceLog = s.deviceLog := rfl
@[simp] theorem State.setDBR_deviceTime (s : State) (v : Byte) : (s.setDBR v).deviceTime = s.deviceTime := rfl
@[simp] theorem State.setDBR_mem (s : State) (v : Byte) : (s.setDBR v).mem = s.mem := rfl
@[simp] theorem State.setD_C (s : State) (v : Word) : (s.setD v).C = s.C := rfl
@[simp] theorem State.setD_DBR (s : State) (v : Word) : (s.setD v).DBR = s.DBR := rfl
@[simp] theorem State.setD_D (s : State) (v : Word) : (s.setD v).D = v := rfl
@[simp] theorem State.setD_K (s : State) (v : Word) : (s.setD v).K = s.K := rfl
@[simp] theorem State.setD_PC (s : State) (v : Word) : (s.setD v).PC = s.PC := rfl
@[simp] theorem State.setD_P (s : State) (v : Word) : (s.setD v).P = s.P := rfl
@[simp] theorem State.setD_S (s : State) (v : Word) : (s.setD v).S = s.S := rfl
@[simp] theorem State.setD_X (s : State) (v : Word) : (s.setD v).X = s.X := rfl
@[simp] theorem State.setD_Y (s : State) (v : Word) : (s.setD v).Y = s.Y := rfl
@[simp] theorem State.setD_e (s : State) (v : Word) : (s.setD v).e = s.e := rfl
@[simp] theorem State.setD_run (s : State) (v : Word) : (s.setD v).run = s.run := rfl
@[simp] theorem State.setD_pending (s : State) (v : Word) : (s.setD v).pending = s.pending := rfl
@[simp] theorem State.setD_events (s : State) (v : Word) : (s.setD v).events = s.events := rfl
@[simp] theorem State.setD_vectorMap (s : State) (v : Word) : (s.setD v).vectorMap = s.vectorMap := rfl
@[simp] theorem State.setD_freeCount (s : State) (v : Word) : (s.setD v).freeCount = s.freeCount := rfl
@[simp] theorem State.setD_regions (s : State) (v : Word) : (s.setD v).regions = s.regions := rfl
@[simp] theorem State.setD_deviceLog (s : State) (v : Word) : (s.setD v).deviceLog = s.deviceLog := rfl
@[simp] theorem State.setD_deviceTime (s : State) (v : Word) : (s.setD v).deviceTime = s.deviceTime := rfl
@[simp] theorem State.setD_mem (s : State) (v : Word) : (s.setD v).mem = s.mem := rfl
@[simp] theorem State.setK_C (s : State) (v : Byte) : (s.setK v).C = s.C := rfl
@[simp] theorem State.setK_DBR (s : State) (v : Byte) : (s.setK v).DBR = s.DBR := rfl
@[simp] theorem State.setK_D (s : State) (v : Byte) : (s.setK v).D = s.D := rfl
@[simp] theorem State.setK_K (s : State) (v : Byte) : (s.setK v).K = v := rfl
@[simp] theorem State.setK_PC (s : State) (v : Byte) : (s.setK v).PC = s.PC := rfl
@[simp] theorem State.setK_P (s : State) (v : Byte) : (s.setK v).P = s.P := rfl
@[simp] theorem State.setK_S (s : State) (v : Byte) : (s.setK v).S = s.S := rfl
@[simp] theorem State.setK_X (s : State) (v : Byte) : (s.setK v).X = s.X := rfl
@[simp] theorem State.setK_Y (s : State) (v : Byte) : (s.setK v).Y = s.Y := rfl
@[simp] theorem State.setK_e (s : State) (v : Byte) : (s.setK v).e = s.e := rfl
@[simp] theorem State.setK_run (s : State) (v : Byte) : (s.setK v).run = s.run := rfl
@[simp] theorem State.setK_pending (s : State) (v : Byte) : (s.setK v).pending = s.pending := rfl
@[simp] theorem State.setK_events (s : State) (v : Byte) : (s.setK v).events = s.events := rfl
@[simp] theorem State.setK_vectorMap (s : State) (v : Byte) : (s.setK v).vectorMap = s.vectorMap := rfl
@[simp] theorem State.setK_freeCount (s : State) (v : Byte) : (s.setK v).freeCount = s.freeCount := rfl
@[simp] theorem State.setK_regions (s : State) (v : Byte) : (s.setK v).regions = s.regions := rfl
@[simp] theorem State.setK_deviceLog (s : State) (v : Byte) : (s.setK v).deviceLog = s.deviceLog := rfl
@[simp] theorem State.setK_deviceTime (s : State) (v : Byte) : (s.setK v).deviceTime = s.deviceTime := rfl
@[simp] theorem State.setK_mem (s : State) (v : Byte) : (s.setK v).mem = s.mem := rfl
@[simp] theorem State.setPC_C (s : State) (v : Word) : (s.setPC v).C = s.C := rfl
@[simp] theorem State.setPC_DBR (s : State) (v : Word) : (s.setPC v).DBR = s.DBR := rfl
@[simp] theorem State.setPC_D (s : State) (v : Word) : (s.setPC v).D = s.D := rfl
@[simp] theorem State.setPC_K (s : State) (v : Word) : (s.setPC v).K = s.K := rfl
@[simp] theorem State.setPC_PC (s : State) (v : Word) : (s.setPC v).PC = v := rfl
@[simp] theorem State.setPC_P (s : State) (v : Word) : (s.setPC v).P = s.P := rfl
@[simp] theorem State.setPC_S (s : State) (v : Word) : (s.setPC v).S = s.S := rfl
@[simp] theorem State.setPC_X (s : State) (v : Word) : (s.setPC v).X = s.X := rfl
@[simp] theorem State.setPC_Y (s : State) (v : Word) : (s.setPC v).Y = s.Y := rfl
@[simp] theorem State.setPC_e (s : State) (v : Word) : (s.setPC v).e = s.e := rfl
@[simp] theorem State.setPC_run (s : State) (v : Word) : (s.setPC v).run = s.run := rfl
@[simp] theorem State.setPC_pending (s : State) (v : Word) : (s.setPC v).pending = s.pending := rfl
@[simp] theorem State.setPC_events (s : State) (v : Word) : (s.setPC v).events = s.events := rfl
@[simp] theorem State.setPC_vectorMap (s : State) (v : Word) : (s.setPC v).vectorMap = s.vectorMap := rfl
@[simp] theorem State.setPC_freeCount (s : State) (v : Word) : (s.setPC v).freeCount = s.freeCount := rfl
@[simp] theorem State.setPC_regions (s : State) (v : Word) : (s.setPC v).regions = s.regions := rfl
@[simp] theorem State.setPC_deviceLog (s : State) (v : Word) : (s.setPC v).deviceLog = s.deviceLog := rfl
@[simp] theorem State.setPC_deviceTime (s : State) (v : Word) : (s.setPC v).deviceTime = s.deviceTime := rfl
@[simp] theorem State.setPC_mem (s : State) (v : Word) : (s.setPC v).mem = s.mem := rfl
@[simp] theorem State.setRun_C (s : State) (v : RunState) : (s.setRun v).C = s.C := rfl
@[simp] theorem State.setRun_DBR (s : State) (v : RunState) : (s.setRun v).DBR = s.DBR := rfl
@[simp] theorem State.setRun_D (s : State) (v : RunState) : (s.setRun v).D = s.D := rfl
@[simp] theorem State.setRun_K (s : State) (v : RunState) : (s.setRun v).K = s.K := rfl
@[simp] theorem State.setRun_PC (s : State) (v : RunState) : (s.setRun v).PC = s.PC := rfl
@[simp] theorem State.setRun_P (s : State) (v : RunState) : (s.setRun v).P = s.P := rfl
@[simp] theorem State.setRun_S (s : State) (v : RunState) : (s.setRun v).S = s.S := rfl
@[simp] theorem State.setRun_X (s : State) (v : RunState) : (s.setRun v).X = s.X := rfl
@[simp] theorem State.setRun_Y (s : State) (v : RunState) : (s.setRun v).Y = s.Y := rfl
@[simp] theorem State.setRun_e (s : State) (v : RunState) : (s.setRun v).e = s.e := rfl
@[simp] theorem State.setRun_run (s : State) (v : RunState) : (s.setRun v).run = v := rfl
@[simp] theorem State.setRun_pending (s : State) (v : RunState) : (s.setRun v).pending = s.pending := rfl
@[simp] theorem State.setRun_events (s : State) (v : RunState) : (s.setRun v).events = s.events := rfl
@[simp] theorem State.setRun_vectorMap (s : State) (v : RunState) : (s.setRun v).vectorMap = s.vectorMap := rfl
@[simp] theorem State.setRun_freeCount (s : State) (v : RunState) : (s.setRun v).freeCount = s.freeCount := rfl
@[simp] theorem State.setRun_regions (s : State) (v : RunState) : (s.setRun v).regions = s.regions := rfl
@[simp] theorem State.setRun_deviceLog (s : State) (v : RunState) : (s.setRun v).deviceLog = s.deviceLog := rfl
@[simp] theorem State.setRun_deviceTime (s : State) (v : RunState) : (s.setRun v).deviceTime = s.deviceTime := rfl
@[simp] theorem State.setRun_mem (s : State) (v : RunState) : (s.setRun v).mem = s.mem := rfl
@[simp] theorem State.setPending_C (s : State) (v : Requests) : (s.setPending v).C = s.C := rfl
@[simp] theorem State.setPending_DBR (s : State) (v : Requests) : (s.setPending v).DBR = s.DBR := rfl
@[simp] theorem State.setPending_D (s : State) (v : Requests) : (s.setPending v).D = s.D := rfl
@[simp] theorem State.setPending_K (s : State) (v : Requests) : (s.setPending v).K = s.K := rfl
@[simp] theorem State.setPending_PC (s : State) (v : Requests) : (s.setPending v).PC = s.PC := rfl
@[simp] theorem State.setPending_P (s : State) (v : Requests) : (s.setPending v).P = s.P := rfl
@[simp] theorem State.setPending_S (s : State) (v : Requests) : (s.setPending v).S = s.S := rfl
@[simp] theorem State.setPending_X (s : State) (v : Requests) : (s.setPending v).X = s.X := rfl
@[simp] theorem State.setPending_Y (s : State) (v : Requests) : (s.setPending v).Y = s.Y := rfl
@[simp] theorem State.setPending_e (s : State) (v : Requests) : (s.setPending v).e = s.e := rfl
@[simp] theorem State.setPending_run (s : State) (v : Requests) : (s.setPending v).run = s.run := rfl
@[simp] theorem State.setPending_pending (s : State) (v : Requests) : (s.setPending v).pending = v := rfl
@[simp] theorem State.setPending_events (s : State) (v : Requests) : (s.setPending v).events = s.events := rfl
@[simp] theorem State.setPending_vectorMap (s : State) (v : Requests) : (s.setPending v).vectorMap = s.vectorMap := rfl
@[simp] theorem State.setPending_freeCount (s : State) (v : Requests) : (s.setPending v).freeCount = s.freeCount := rfl
@[simp] theorem State.setPending_regions (s : State) (v : Requests) : (s.setPending v).regions = s.regions := rfl
@[simp] theorem State.setPending_deviceLog (s : State) (v : Requests) : (s.setPending v).deviceLog = s.deviceLog := rfl
@[simp] theorem State.setPending_deviceTime (s : State) (v : Requests) : (s.setPending v).deviceTime = s.deviceTime := rfl
@[simp] theorem State.setPending_mem (s : State) (v : Requests) : (s.setPending v).mem = s.mem := rfl
@[simp] theorem State.setEvents_C (s : State) (v : List PlatformEvent) : (s.setEvents v).C = s.C := rfl
@[simp] theorem State.setEvents_DBR (s : State) (v : List PlatformEvent) : (s.setEvents v).DBR = s.DBR := rfl
@[simp] theorem State.setEvents_D (s : State) (v : List PlatformEvent) : (s.setEvents v).D = s.D := rfl
@[simp] theorem State.setEvents_K (s : State) (v : List PlatformEvent) : (s.setEvents v).K = s.K := rfl
@[simp] theorem State.setEvents_PC (s : State) (v : List PlatformEvent) : (s.setEvents v).PC = s.PC := rfl
@[simp] theorem State.setEvents_P (s : State) (v : List PlatformEvent) : (s.setEvents v).P = s.P := rfl
@[simp] theorem State.setEvents_S (s : State) (v : List PlatformEvent) : (s.setEvents v).S = s.S := rfl
@[simp] theorem State.setEvents_X (s : State) (v : List PlatformEvent) : (s.setEvents v).X = s.X := rfl
@[simp] theorem State.setEvents_Y (s : State) (v : List PlatformEvent) : (s.setEvents v).Y = s.Y := rfl
@[simp] theorem State.setEvents_e (s : State) (v : List PlatformEvent) : (s.setEvents v).e = s.e := rfl
@[simp] theorem State.setEvents_run (s : State) (v : List PlatformEvent) : (s.setEvents v).run = s.run := rfl
@[simp] theorem State.setEvents_pending (s : State) (v : List PlatformEvent) : (s.setEvents v).pending = s.pending := rfl
@[simp] theorem State.setEvents_events (s : State) (v : List PlatformEvent) : (s.setEvents v).events = v := rfl
@[simp] theorem State.setEvents_vectorMap (s : State) (v : List PlatformEvent) : (s.setEvents v).vectorMap = s.vectorMap := rfl
@[simp] theorem State.setEvents_freeCount (s : State) (v : List PlatformEvent) : (s.setEvents v).freeCount = s.freeCount := rfl
@[simp] theorem State.setEvents_regions (s : State) (v : List PlatformEvent) : (s.setEvents v).regions = s.regions := rfl
@[simp] theorem State.setEvents_deviceLog (s : State) (v : List PlatformEvent) : (s.setEvents v).deviceLog = s.deviceLog := rfl
@[simp] theorem State.setEvents_deviceTime (s : State) (v : List PlatformEvent) : (s.setEvents v).deviceTime = s.deviceTime := rfl
@[simp] theorem State.setEvents_mem (s : State) (v : List PlatformEvent) : (s.setEvents v).mem = s.mem := rfl
@[simp] theorem State.setFreeCount_C (s : State) (v : Nat) : (s.setFreeCount v).C = s.C := rfl
@[simp] theorem State.setFreeCount_DBR (s : State) (v : Nat) : (s.setFreeCount v).DBR = s.DBR := rfl
@[simp] theorem State.setFreeCount_D (s : State) (v : Nat) : (s.setFreeCount v).D = s.D := rfl
@[simp] theorem State.setFreeCount_K (s : State) (v : Nat) : (s.setFreeCount v).K = s.K := rfl
@[simp] theorem State.setFreeCount_PC (s : State) (v : Nat) : (s.setFreeCount v).PC = s.PC := rfl
@[simp] theorem State.setFreeCount_P (s : State) (v : Nat) : (s.setFreeCount v).P = s.P := rfl
@[simp] theorem State.setFreeCount_S (s : State) (v : Nat) : (s.setFreeCount v).S = s.S := rfl
@[simp] theorem State.setFreeCount_X (s : State) (v : Nat) : (s.setFreeCount v).X = s.X := rfl
@[simp] theorem State.setFreeCount_Y (s : State) (v : Nat) : (s.setFreeCount v).Y = s.Y := rfl
@[simp] theorem State.setFreeCount_e (s : State) (v : Nat) : (s.setFreeCount v).e = s.e := rfl
@[simp] theorem State.setFreeCount_run (s : State) (v : Nat) : (s.setFreeCount v).run = s.run := rfl
@[simp] theorem State.setFreeCount_pending (s : State) (v : Nat) : (s.setFreeCount v).pending = s.pending := rfl
@[simp] theorem State.setFreeCount_events (s : State) (v : Nat) : (s.setFreeCount v).events = s.events := rfl
@[simp] theorem State.setFreeCount_vectorMap (s : State) (v : Nat) : (s.setFreeCount v).vectorMap = s.vectorMap := rfl
@[simp] theorem State.setFreeCount_freeCount (s : State) (v : Nat) : (s.setFreeCount v).freeCount = v := rfl
@[simp] theorem State.setFreeCount_regions (s : State) (v : Nat) : (s.setFreeCount v).regions = s.regions := rfl
@[simp] theorem State.setFreeCount_deviceLog (s : State) (v : Nat) : (s.setFreeCount v).deviceLog = s.deviceLog := rfl
@[simp] theorem State.setFreeCount_deviceTime (s : State) (v : Nat) : (s.setFreeCount v).deviceTime = s.deviceTime := rfl
@[simp] theorem State.setFreeCount_mem (s : State) (v : Nat) : (s.setFreeCount v).mem = s.mem := rfl
@[simp] theorem State.setRegions_C (s : State) (v : List Region) : (s.setRegions v).C = s.C := rfl
@[simp] theorem State.setRegions_DBR (s : State) (v : List Region) : (s.setRegions v).DBR = s.DBR := rfl
@[simp] theorem State.setRegions_D (s : State) (v : List Region) : (s.setRegions v).D = s.D := rfl
@[simp] theorem State.setRegions_K (s : State) (v : List Region) : (s.setRegions v).K = s.K := rfl
@[simp] theorem State.setRegions_PC (s : State) (v : List Region) : (s.setRegions v).PC = s.PC := rfl
@[simp] theorem State.setRegions_P (s : State) (v : List Region) : (s.setRegions v).P = s.P := rfl
@[simp] theorem State.setRegions_S (s : State) (v : List Region) : (s.setRegions v).S = s.S := rfl
@[simp] theorem State.setRegions_X (s : State) (v : List Region) : (s.setRegions v).X = s.X := rfl
@[simp] theorem State.setRegions_Y (s : State) (v : List Region) : (s.setRegions v).Y = s.Y := rfl
@[simp] theorem State.setRegions_e (s : State) (v : List Region) : (s.setRegions v).e = s.e := rfl
@[simp] theorem State.setRegions_run (s : State) (v : List Region) : (s.setRegions v).run = s.run := rfl
@[simp] theorem State.setRegions_pending (s : State) (v : List Region) : (s.setRegions v).pending = s.pending := rfl
@[simp] theorem State.setRegions_events (s : State) (v : List Region) : (s.setRegions v).events = s.events := rfl
@[simp] theorem State.setRegions_vectorMap (s : State) (v : List Region) : (s.setRegions v).vectorMap = s.vectorMap := rfl
@[simp] theorem State.setRegions_freeCount (s : State) (v : List Region) : (s.setRegions v).freeCount = s.freeCount := rfl
@[simp] theorem State.setRegions_regions (s : State) (v : List Region) : (s.setRegions v).regions = v := rfl
@[simp] theorem State.setRegions_deviceLog (s : State) (v : List Region) : (s.setRegions v).deviceLog = s.deviceLog := rfl
@[simp] theorem State.setRegions_deviceTime (s : State) (v : List Region) : (s.setRegions v).deviceTime = s.deviceTime := rfl
@[simp] theorem State.setRegions_mem (s : State) (v : List Region) : (s.setRegions v).mem = s.mem := rfl
@[simp] theorem State.setDeviceLog_C (s : State) (v : List (Nat × Access)) : (s.setDeviceLog v).C = s.C := rfl
@[simp] theorem State.setDeviceLog_DBR (s : State) (v : List (Nat × Access)) : (s.setDeviceLog v).DBR = s.DBR := rfl
@[simp] theorem State.setDeviceLog_D (s : State) (v : List (Nat × Access)) : (s.setDeviceLog v).D = s.D := rfl
@[simp] theorem State.setDeviceLog_K (s : State) (v : List (Nat × Access)) : (s.setDeviceLog v).K = s.K := rfl
@[simp] theorem State.setDeviceLog_PC (s : State) (v : List (Nat × Access)) : (s.setDeviceLog v).PC = s.PC := rfl
@[simp] theorem State.setDeviceLog_P (s : State) (v : List (Nat × Access)) : (s.setDeviceLog v).P = s.P := rfl
@[simp] theorem State.setDeviceLog_S (s : State) (v : List (Nat × Access)) : (s.setDeviceLog v).S = s.S := rfl
@[simp] theorem State.setDeviceLog_X (s : State) (v : List (Nat × Access)) : (s.setDeviceLog v).X = s.X := rfl
@[simp] theorem State.setDeviceLog_Y (s : State) (v : List (Nat × Access)) : (s.setDeviceLog v).Y = s.Y := rfl
@[simp] theorem State.setDeviceLog_e (s : State) (v : List (Nat × Access)) : (s.setDeviceLog v).e = s.e := rfl
@[simp] theorem State.setDeviceLog_run (s : State) (v : List (Nat × Access)) : (s.setDeviceLog v).run = s.run := rfl
@[simp] theorem State.setDeviceLog_pending (s : State) (v : List (Nat × Access)) : (s.setDeviceLog v).pending = s.pending := rfl
@[simp] theorem State.setDeviceLog_events (s : State) (v : List (Nat × Access)) : (s.setDeviceLog v).events = s.events := rfl
@[simp] theorem State.setDeviceLog_vectorMap (s : State) (v : List (Nat × Access)) : (s.setDeviceLog v).vectorMap = s.vectorMap := rfl
@[simp] theorem State.setDeviceLog_freeCount (s : State) (v : List (Nat × Access)) : (s.setDeviceLog v).freeCount = s.freeCount := rfl
@[simp] theorem State.setDeviceLog_regions (s : State) (v : List (Nat × Access)) : (s.setDeviceLog v).regions = s.regions := rfl
@[simp] theorem State.setDeviceLog_deviceLog (s : State) (v : List (Nat × Access)) : (s.setDeviceLog v).deviceLog = v := rfl
@[simp] theorem State.setDeviceLog_deviceTime (s : State) (v : List (Nat × Access)) : (s.setDeviceLog v).deviceTime = s.deviceTime := rfl
@[simp] theorem State.setDeviceLog_mem (s : State) (v : List (Nat × Access)) : (s.setDeviceLog v).mem = s.mem := rfl
@[simp] theorem State.setDeviceTime_C (s : State) (v : Nat) : (s.setDeviceTime v).C = s.C := rfl
@[simp] theorem State.setDeviceTime_DBR (s : State) (v : Nat) : (s.setDeviceTime v).DBR = s.DBR := rfl
@[simp] theorem State.setDeviceTime_D (s : State) (v : Nat) : (s.setDeviceTime v).D = s.D := rfl
@[simp] theorem State.setDeviceTime_K (s : State) (v : Nat) : (s.setDeviceTime v).K = s.K := rfl
@[simp] theorem State.setDeviceTime_PC (s : State) (v : Nat) : (s.setDeviceTime v).PC = s.PC := rfl
@[simp] theorem State.setDeviceTime_P (s : State) (v : Nat) : (s.setDeviceTime v).P = s.P := rfl
@[simp] theorem State.setDeviceTime_S (s : State) (v : Nat) : (s.setDeviceTime v).S = s.S := rfl
@[simp] theorem State.setDeviceTime_X (s : State) (v : Nat) : (s.setDeviceTime v).X = s.X := rfl
@[simp] theorem State.setDeviceTime_Y (s : State) (v : Nat) : (s.setDeviceTime v).Y = s.Y := rfl
@[simp] theorem State.setDeviceTime_e (s : State) (v : Nat) : (s.setDeviceTime v).e = s.e := rfl
@[simp] theorem State.setDeviceTime_run (s : State) (v : Nat) : (s.setDeviceTime v).run = s.run := rfl
@[simp] theorem State.setDeviceTime_pending (s : State) (v : Nat) : (s.setDeviceTime v).pending = s.pending := rfl
@[simp] theorem State.setDeviceTime_events (s : State) (v : Nat) : (s.setDeviceTime v).events = s.events := rfl
@[simp] theorem State.setDeviceTime_vectorMap (s : State) (v : Nat) : (s.setDeviceTime v).vectorMap = s.vectorMap := rfl
@[simp] theorem State.setDeviceTime_freeCount (s : State) (v : Nat) : (s.setDeviceTime v).freeCount = s.freeCount := rfl
@[simp] theorem State.setDeviceTime_regions (s : State) (v : Nat) : (s.setDeviceTime v).regions = s.regions := rfl
@[simp] theorem State.setDeviceTime_deviceLog (s : State) (v : Nat) : (s.setDeviceTime v).deviceLog = s.deviceLog := rfl
@[simp] theorem State.setDeviceTime_deviceTime (s : State) (v : Nat) : (s.setDeviceTime v).deviceTime = v := rfl
@[simp] theorem State.setDeviceTime_mem (s : State) (v : Nat) : (s.setDeviceTime v).mem = s.mem := rfl
@[simp] theorem State.setMem_C (s : State) (v : Memory) : (s.setMem v).C = s.C := rfl
@[simp] theorem State.setMem_DBR (s : State) (v : Memory) : (s.setMem v).DBR = s.DBR := rfl
@[simp] theorem State.setMem_D (s : State) (v : Memory) : (s.setMem v).D = s.D := rfl
@[simp] theorem State.setMem_K (s : State) (v : Memory) : (s.setMem v).K = s.K := rfl
@[simp] theorem State.setMem_PC (s : State) (v : Memory) : (s.setMem v).PC = s.PC := rfl
@[simp] theorem State.setMem_P (s : State) (v : Memory) : (s.setMem v).P = s.P := rfl
@[simp] theorem State.setMem_S (s : State) (v : Memory) : (s.setMem v).S = s.S := rfl
@[simp] theorem State.setMem_X (s : State) (v : Memory) : (s.setMem v).X = s.X := rfl
@[simp] theorem State.setMem_Y (s : State) (v : Memory) : (s.setMem v).Y = s.Y := rfl
@[simp] theorem State.setMem_e (s : State) (v : Memory) : (s.setMem v).e = s.e := rfl
@[simp] theorem State.setMem_run (s : State) (v : Memory) : (s.setMem v).run = s.run := rfl
@[simp] theorem State.setMem_pending (s : State) (v : Memory) : (s.setMem v).pending = s.pending := rfl
@[simp] theorem State.setMem_events (s : State) (v : Memory) : (s.setMem v).events = s.events := rfl
@[simp] theorem State.setMem_vectorMap (s : State) (v : Memory) : (s.setMem v).vectorMap = s.vectorMap := rfl
@[simp] theorem State.setMem_freeCount (s : State) (v : Memory) : (s.setMem v).freeCount = s.freeCount := rfl
@[simp] theorem State.setMem_regions (s : State) (v : Memory) : (s.setMem v).regions = s.regions := rfl
@[simp] theorem State.setMem_deviceLog (s : State) (v : Memory) : (s.setMem v).deviceLog = s.deviceLog := rfl
@[simp] theorem State.setMem_deviceTime (s : State) (v : Memory) : (s.setMem v).deviceTime = s.deviceTime := rfl
@[simp] theorem State.setMem_mem (s : State) (v : Memory) : (s.setMem v).mem = v := rfl
@[simp] theorem State.setFlags_C (s : State) (v : Byte) : (s.setFlags v).C = s.C := rfl
@[simp] theorem State.setFlags_DBR (s : State) (v : Byte) : (s.setFlags v).DBR = s.DBR := rfl
@[simp] theorem State.setFlags_D (s : State) (v : Byte) : (s.setFlags v).D = s.D := rfl
@[simp] theorem State.setFlags_K (s : State) (v : Byte) : (s.setFlags v).K = s.K := rfl
@[simp] theorem State.setFlags_PC (s : State) (v : Byte) : (s.setFlags v).PC = s.PC := rfl
@[simp] theorem State.setFlags_P (s : State) (v : Byte) : (s.setFlags v).P = v := rfl
@[simp] theorem State.setFlags_S (s : State) (v : Byte) : (s.setFlags v).S = s.S := rfl
@[simp] theorem State.setFlags_X (s : State) (v : Byte) : (s.setFlags v).X = s.X := rfl
@[simp] theorem State.setFlags_Y (s : State) (v : Byte) : (s.setFlags v).Y = s.Y := rfl
@[simp] theorem State.setFlags_e (s : State) (v : Byte) : (s.setFlags v).e = s.e := rfl
@[simp] theorem State.setFlags_run (s : State) (v : Byte) : (s.setFlags v).run = s.run := rfl
@[simp] theorem State.setFlags_pending (s : State) (v : Byte) : (s.setFlags v).pending = s.pending := rfl
@[simp] theorem State.setFlags_events (s : State) (v : Byte) : (s.setFlags v).events = s.events := rfl
@[simp] theorem State.setFlags_vectorMap (s : State) (v : Byte) : (s.setFlags v).vectorMap = s.vectorMap := rfl
@[simp] theorem State.setFlags_freeCount (s : State) (v : Byte) : (s.setFlags v).freeCount = s.freeCount := rfl
@[simp] theorem State.setFlags_regions (s : State) (v : Byte) : (s.setFlags v).regions = s.regions := rfl
@[simp] theorem State.setFlags_deviceLog (s : State) (v : Byte) : (s.setFlags v).deviceLog = s.deviceLog := rfl
@[simp] theorem State.setFlags_deviceTime (s : State) (v : Byte) : (s.setFlags v).deviceTime = s.deviceTime := rfl
@[simp] theorem State.setFlags_mem (s : State) (v : Byte) : (s.setFlags v).mem = s.mem := rfl

/-! ### Writes under the forcing rule -/

@[simp] theorem State.setX_C (s : State) (w : Word) : (s.setX w).C = s.C := rfl
@[simp] theorem State.setX_DBR (s : State) (w : Word) : (s.setX w).DBR = s.DBR := rfl
@[simp] theorem State.setX_D (s : State) (w : Word) : (s.setX w).D = s.D := rfl
@[simp] theorem State.setX_K (s : State) (w : Word) : (s.setX w).K = s.K := rfl
@[simp] theorem State.setX_PC (s : State) (w : Word) : (s.setX w).PC = s.PC := rfl
@[simp] theorem State.setX_P (s : State) (w : Word) : (s.setX w).P = s.P := rfl
@[simp] theorem State.setX_S (s : State) (w : Word) : (s.setX w).S = s.S := rfl
@[simp] theorem State.setX_X (s : State) (w : Word) : (s.setX w).X = indexForced s.x w := rfl
@[simp] theorem State.setX_Y (s : State) (w : Word) : (s.setX w).Y = s.Y := rfl
@[simp] theorem State.setX_e (s : State) (w : Word) : (s.setX w).e = s.e := rfl
@[simp] theorem State.setX_run (s : State) (w : Word) : (s.setX w).run = s.run := rfl
@[simp] theorem State.setX_pending (s : State) (w : Word) : (s.setX w).pending = s.pending := rfl
@[simp] theorem State.setX_events (s : State) (w : Word) : (s.setX w).events = s.events := rfl
@[simp] theorem State.setX_vectorMap (s : State) (w : Word) : (s.setX w).vectorMap = s.vectorMap := rfl
@[simp] theorem State.setX_freeCount (s : State) (w : Word) : (s.setX w).freeCount = s.freeCount := rfl
@[simp] theorem State.setX_regions (s : State) (w : Word) : (s.setX w).regions = s.regions := rfl
@[simp] theorem State.setX_deviceLog (s : State) (w : Word) : (s.setX w).deviceLog = s.deviceLog := rfl
@[simp] theorem State.setX_deviceTime (s : State) (w : Word) : (s.setX w).deviceTime = s.deviceTime := rfl
@[simp] theorem State.setX_mem (s : State) (w : Word) : (s.setX w).mem = s.mem := rfl
@[simp] theorem State.setY_C (s : State) (w : Word) : (s.setY w).C = s.C := rfl
@[simp] theorem State.setY_DBR (s : State) (w : Word) : (s.setY w).DBR = s.DBR := rfl
@[simp] theorem State.setY_D (s : State) (w : Word) : (s.setY w).D = s.D := rfl
@[simp] theorem State.setY_K (s : State) (w : Word) : (s.setY w).K = s.K := rfl
@[simp] theorem State.setY_PC (s : State) (w : Word) : (s.setY w).PC = s.PC := rfl
@[simp] theorem State.setY_P (s : State) (w : Word) : (s.setY w).P = s.P := rfl
@[simp] theorem State.setY_S (s : State) (w : Word) : (s.setY w).S = s.S := rfl
@[simp] theorem State.setY_X (s : State) (w : Word) : (s.setY w).X = s.X := rfl
@[simp] theorem State.setY_Y (s : State) (w : Word) : (s.setY w).Y = indexForced s.x w := rfl
@[simp] theorem State.setY_e (s : State) (w : Word) : (s.setY w).e = s.e := rfl
@[simp] theorem State.setY_run (s : State) (w : Word) : (s.setY w).run = s.run := rfl
@[simp] theorem State.setY_pending (s : State) (w : Word) : (s.setY w).pending = s.pending := rfl
@[simp] theorem State.setY_events (s : State) (w : Word) : (s.setY w).events = s.events := rfl
@[simp] theorem State.setY_vectorMap (s : State) (w : Word) : (s.setY w).vectorMap = s.vectorMap := rfl
@[simp] theorem State.setY_freeCount (s : State) (w : Word) : (s.setY w).freeCount = s.freeCount := rfl
@[simp] theorem State.setY_regions (s : State) (w : Word) : (s.setY w).regions = s.regions := rfl
@[simp] theorem State.setY_deviceLog (s : State) (w : Word) : (s.setY w).deviceLog = s.deviceLog := rfl
@[simp] theorem State.setY_deviceTime (s : State) (w : Word) : (s.setY w).deviceTime = s.deviceTime := rfl
@[simp] theorem State.setY_mem (s : State) (w : Word) : (s.setY w).mem = s.mem := rfl
@[simp] theorem State.setS_C (s : State) (w : Word) : (s.setS w).C = s.C := rfl
@[simp] theorem State.setS_DBR (s : State) (w : Word) : (s.setS w).DBR = s.DBR := rfl
@[simp] theorem State.setS_D (s : State) (w : Word) : (s.setS w).D = s.D := rfl
@[simp] theorem State.setS_K (s : State) (w : Word) : (s.setS w).K = s.K := rfl
@[simp] theorem State.setS_PC (s : State) (w : Word) : (s.setS w).PC = s.PC := rfl
@[simp] theorem State.setS_P (s : State) (w : Word) : (s.setS w).P = s.P := rfl
@[simp] theorem State.setS_S (s : State) (w : Word) : (s.setS w).S = stackForced s.e w := rfl
@[simp] theorem State.setS_X (s : State) (w : Word) : (s.setS w).X = s.X := rfl
@[simp] theorem State.setS_Y (s : State) (w : Word) : (s.setS w).Y = s.Y := rfl
@[simp] theorem State.setS_e (s : State) (w : Word) : (s.setS w).e = s.e := rfl
@[simp] theorem State.setS_run (s : State) (w : Word) : (s.setS w).run = s.run := rfl
@[simp] theorem State.setS_pending (s : State) (w : Word) : (s.setS w).pending = s.pending := rfl
@[simp] theorem State.setS_events (s : State) (w : Word) : (s.setS w).events = s.events := rfl
@[simp] theorem State.setS_vectorMap (s : State) (w : Word) : (s.setS w).vectorMap = s.vectorMap := rfl
@[simp] theorem State.setS_freeCount (s : State) (w : Word) : (s.setS w).freeCount = s.freeCount := rfl
@[simp] theorem State.setS_regions (s : State) (w : Word) : (s.setS w).regions = s.regions := rfl
@[simp] theorem State.setS_deviceLog (s : State) (w : Word) : (s.setS w).deviceLog = s.deviceLog := rfl
@[simp] theorem State.setS_deviceTime (s : State) (w : Word) : (s.setS w).deviceTime = s.deviceTime := rfl
@[simp] theorem State.setS_mem (s : State) (w : Word) : (s.setS w).mem = s.mem := rfl
@[simp] theorem State.setP_C (s : State) (p : Byte) : (s.setP p).C = s.C := rfl
@[simp] theorem State.setP_DBR (s : State) (p : Byte) : (s.setP p).DBR = s.DBR := rfl
@[simp] theorem State.setP_D (s : State) (p : Byte) : (s.setP p).D = s.D := rfl
@[simp] theorem State.setP_K (s : State) (p : Byte) : (s.setP p).K = s.K := rfl
@[simp] theorem State.setP_PC (s : State) (p : Byte) : (s.setP p).PC = s.PC := rfl
@[simp] theorem State.setP_P (s : State) (p : Byte) : (s.setP p).P = statusForced s.e p := rfl
@[simp] theorem State.setP_S (s : State) (p : Byte) : (s.setP p).S = s.S := rfl
@[simp] theorem State.setP_X (s : State) (p : Byte) : (s.setP p).X = indexForced (bitAt (statusForced s.e p) 4) s.X := rfl
@[simp] theorem State.setP_Y (s : State) (p : Byte) : (s.setP p).Y = indexForced (bitAt (statusForced s.e p) 4) s.Y := rfl
@[simp] theorem State.setP_e (s : State) (p : Byte) : (s.setP p).e = s.e := rfl
@[simp] theorem State.setP_run (s : State) (p : Byte) : (s.setP p).run = s.run := rfl
@[simp] theorem State.setP_pending (s : State) (p : Byte) : (s.setP p).pending = s.pending := rfl
@[simp] theorem State.setP_events (s : State) (p : Byte) : (s.setP p).events = s.events := rfl
@[simp] theorem State.setP_vectorMap (s : State) (p : Byte) : (s.setP p).vectorMap = s.vectorMap := rfl
@[simp] theorem State.setP_freeCount (s : State) (p : Byte) : (s.setP p).freeCount = s.freeCount := rfl
@[simp] theorem State.setP_regions (s : State) (p : Byte) : (s.setP p).regions = s.regions := rfl
@[simp] theorem State.setP_deviceLog (s : State) (p : Byte) : (s.setP p).deviceLog = s.deviceLog := rfl
@[simp] theorem State.setP_deviceTime (s : State) (p : Byte) : (s.setP p).deviceTime = s.deviceTime := rfl
@[simp] theorem State.setP_mem (s : State) (p : Byte) : (s.setP p).mem = s.mem := rfl
@[simp] theorem State.setE_C (s : State) (b : Bool) : (s.setE b).C = s.C := rfl
@[simp] theorem State.setE_DBR (s : State) (b : Bool) : (s.setE b).DBR = s.DBR := rfl
@[simp] theorem State.setE_D (s : State) (b : Bool) : (s.setE b).D = s.D := rfl
@[simp] theorem State.setE_K (s : State) (b : Bool) : (s.setE b).K = s.K := rfl
@[simp] theorem State.setE_PC (s : State) (b : Bool) : (s.setE b).PC = s.PC := rfl
@[simp] theorem State.setE_P (s : State) (b : Bool) : (s.setE b).P = statusForced b s.P := rfl
@[simp] theorem State.setE_S (s : State) (b : Bool) : (s.setE b).S = stackForced b s.S := rfl
@[simp] theorem State.setE_X (s : State) (b : Bool) : (s.setE b).X = indexForced (bitAt (statusForced b s.P) 4) s.X := rfl
@[simp] theorem State.setE_Y (s : State) (b : Bool) : (s.setE b).Y = indexForced (bitAt (statusForced b s.P) 4) s.Y := rfl
@[simp] theorem State.setE_e (s : State) (b : Bool) : (s.setE b).e = b := rfl
@[simp] theorem State.setE_run (s : State) (b : Bool) : (s.setE b).run = s.run := rfl
@[simp] theorem State.setE_pending (s : State) (b : Bool) : (s.setE b).pending = s.pending := rfl
@[simp] theorem State.setE_events (s : State) (b : Bool) : (s.setE b).events = s.events := rfl
@[simp] theorem State.setE_vectorMap (s : State) (b : Bool) : (s.setE b).vectorMap = s.vectorMap := rfl
@[simp] theorem State.setE_freeCount (s : State) (b : Bool) : (s.setE b).freeCount = s.freeCount := rfl
@[simp] theorem State.setE_regions (s : State) (b : Bool) : (s.setE b).regions = s.regions := rfl
@[simp] theorem State.setE_deviceLog (s : State) (b : Bool) : (s.setE b).deviceLog = s.deviceLog := rfl
@[simp] theorem State.setE_deviceTime (s : State) (b : Bool) : (s.setE b).deviceTime = s.deviceTime := rfl
@[simp] theorem State.setE_mem (s : State) (b : Bool) : (s.setE b).mem = s.mem := rfl

/-! ### Single flags and the program counter -/

@[simp] theorem State.setN_C (s : State) (b : Bool) : (s.setN b).C = s.C := rfl
@[simp] theorem State.setN_DBR (s : State) (b : Bool) : (s.setN b).DBR = s.DBR := rfl
@[simp] theorem State.setN_D (s : State) (b : Bool) : (s.setN b).D = s.D := rfl
@[simp] theorem State.setN_K (s : State) (b : Bool) : (s.setN b).K = s.K := rfl
@[simp] theorem State.setN_PC (s : State) (b : Bool) : (s.setN b).PC = s.PC := rfl
@[simp] theorem State.setN_P (s : State) (b : Bool) : (s.setN b).P = putBit s.P 7 b := rfl
@[simp] theorem State.setN_S (s : State) (b : Bool) : (s.setN b).S = s.S := rfl
@[simp] theorem State.setN_X (s : State) (b : Bool) : (s.setN b).X = s.X := rfl
@[simp] theorem State.setN_Y (s : State) (b : Bool) : (s.setN b).Y = s.Y := rfl
@[simp] theorem State.setN_e (s : State) (b : Bool) : (s.setN b).e = s.e := rfl
@[simp] theorem State.setN_run (s : State) (b : Bool) : (s.setN b).run = s.run := rfl
@[simp] theorem State.setN_pending (s : State) (b : Bool) : (s.setN b).pending = s.pending := rfl
@[simp] theorem State.setN_events (s : State) (b : Bool) : (s.setN b).events = s.events := rfl
@[simp] theorem State.setN_vectorMap (s : State) (b : Bool) : (s.setN b).vectorMap = s.vectorMap := rfl
@[simp] theorem State.setN_freeCount (s : State) (b : Bool) : (s.setN b).freeCount = s.freeCount := rfl
@[simp] theorem State.setN_regions (s : State) (b : Bool) : (s.setN b).regions = s.regions := rfl
@[simp] theorem State.setN_deviceLog (s : State) (b : Bool) : (s.setN b).deviceLog = s.deviceLog := rfl
@[simp] theorem State.setN_deviceTime (s : State) (b : Bool) : (s.setN b).deviceTime = s.deviceTime := rfl
@[simp] theorem State.setN_mem (s : State) (b : Bool) : (s.setN b).mem = s.mem := rfl
@[simp] theorem State.setV_C (s : State) (b : Bool) : (s.setV b).C = s.C := rfl
@[simp] theorem State.setV_DBR (s : State) (b : Bool) : (s.setV b).DBR = s.DBR := rfl
@[simp] theorem State.setV_D (s : State) (b : Bool) : (s.setV b).D = s.D := rfl
@[simp] theorem State.setV_K (s : State) (b : Bool) : (s.setV b).K = s.K := rfl
@[simp] theorem State.setV_PC (s : State) (b : Bool) : (s.setV b).PC = s.PC := rfl
@[simp] theorem State.setV_P (s : State) (b : Bool) : (s.setV b).P = putBit s.P 6 b := rfl
@[simp] theorem State.setV_S (s : State) (b : Bool) : (s.setV b).S = s.S := rfl
@[simp] theorem State.setV_X (s : State) (b : Bool) : (s.setV b).X = s.X := rfl
@[simp] theorem State.setV_Y (s : State) (b : Bool) : (s.setV b).Y = s.Y := rfl
@[simp] theorem State.setV_e (s : State) (b : Bool) : (s.setV b).e = s.e := rfl
@[simp] theorem State.setV_run (s : State) (b : Bool) : (s.setV b).run = s.run := rfl
@[simp] theorem State.setV_pending (s : State) (b : Bool) : (s.setV b).pending = s.pending := rfl
@[simp] theorem State.setV_events (s : State) (b : Bool) : (s.setV b).events = s.events := rfl
@[simp] theorem State.setV_vectorMap (s : State) (b : Bool) : (s.setV b).vectorMap = s.vectorMap := rfl
@[simp] theorem State.setV_freeCount (s : State) (b : Bool) : (s.setV b).freeCount = s.freeCount := rfl
@[simp] theorem State.setV_regions (s : State) (b : Bool) : (s.setV b).regions = s.regions := rfl
@[simp] theorem State.setV_deviceLog (s : State) (b : Bool) : (s.setV b).deviceLog = s.deviceLog := rfl
@[simp] theorem State.setV_deviceTime (s : State) (b : Bool) : (s.setV b).deviceTime = s.deviceTime := rfl
@[simp] theorem State.setV_mem (s : State) (b : Bool) : (s.setV b).mem = s.mem := rfl
@[simp] theorem State.setDec_C (s : State) (b : Bool) : (s.setDec b).C = s.C := rfl
@[simp] theorem State.setDec_DBR (s : State) (b : Bool) : (s.setDec b).DBR = s.DBR := rfl
@[simp] theorem State.setDec_D (s : State) (b : Bool) : (s.setDec b).D = s.D := rfl
@[simp] theorem State.setDec_K (s : State) (b : Bool) : (s.setDec b).K = s.K := rfl
@[simp] theorem State.setDec_PC (s : State) (b : Bool) : (s.setDec b).PC = s.PC := rfl
@[simp] theorem State.setDec_P (s : State) (b : Bool) : (s.setDec b).P = putBit s.P 3 b := rfl
@[simp] theorem State.setDec_S (s : State) (b : Bool) : (s.setDec b).S = s.S := rfl
@[simp] theorem State.setDec_X (s : State) (b : Bool) : (s.setDec b).X = s.X := rfl
@[simp] theorem State.setDec_Y (s : State) (b : Bool) : (s.setDec b).Y = s.Y := rfl
@[simp] theorem State.setDec_e (s : State) (b : Bool) : (s.setDec b).e = s.e := rfl
@[simp] theorem State.setDec_run (s : State) (b : Bool) : (s.setDec b).run = s.run := rfl
@[simp] theorem State.setDec_pending (s : State) (b : Bool) : (s.setDec b).pending = s.pending := rfl
@[simp] theorem State.setDec_events (s : State) (b : Bool) : (s.setDec b).events = s.events := rfl
@[simp] theorem State.setDec_vectorMap (s : State) (b : Bool) : (s.setDec b).vectorMap = s.vectorMap := rfl
@[simp] theorem State.setDec_freeCount (s : State) (b : Bool) : (s.setDec b).freeCount = s.freeCount := rfl
@[simp] theorem State.setDec_regions (s : State) (b : Bool) : (s.setDec b).regions = s.regions := rfl
@[simp] theorem State.setDec_deviceLog (s : State) (b : Bool) : (s.setDec b).deviceLog = s.deviceLog := rfl
@[simp] theorem State.setDec_deviceTime (s : State) (b : Bool) : (s.setDec b).deviceTime = s.deviceTime := rfl
@[simp] theorem State.setDec_mem (s : State) (b : Bool) : (s.setDec b).mem = s.mem := rfl
@[simp] theorem State.setI_C (s : State) (b : Bool) : (s.setI b).C = s.C := rfl
@[simp] theorem State.setI_DBR (s : State) (b : Bool) : (s.setI b).DBR = s.DBR := rfl
@[simp] theorem State.setI_D (s : State) (b : Bool) : (s.setI b).D = s.D := rfl
@[simp] theorem State.setI_K (s : State) (b : Bool) : (s.setI b).K = s.K := rfl
@[simp] theorem State.setI_PC (s : State) (b : Bool) : (s.setI b).PC = s.PC := rfl
@[simp] theorem State.setI_P (s : State) (b : Bool) : (s.setI b).P = putBit s.P 2 b := rfl
@[simp] theorem State.setI_S (s : State) (b : Bool) : (s.setI b).S = s.S := rfl
@[simp] theorem State.setI_X (s : State) (b : Bool) : (s.setI b).X = s.X := rfl
@[simp] theorem State.setI_Y (s : State) (b : Bool) : (s.setI b).Y = s.Y := rfl
@[simp] theorem State.setI_e (s : State) (b : Bool) : (s.setI b).e = s.e := rfl
@[simp] theorem State.setI_run (s : State) (b : Bool) : (s.setI b).run = s.run := rfl
@[simp] theorem State.setI_pending (s : State) (b : Bool) : (s.setI b).pending = s.pending := rfl
@[simp] theorem State.setI_events (s : State) (b : Bool) : (s.setI b).events = s.events := rfl
@[simp] theorem State.setI_vectorMap (s : State) (b : Bool) : (s.setI b).vectorMap = s.vectorMap := rfl
@[simp] theorem State.setI_freeCount (s : State) (b : Bool) : (s.setI b).freeCount = s.freeCount := rfl
@[simp] theorem State.setI_regions (s : State) (b : Bool) : (s.setI b).regions = s.regions := rfl
@[simp] theorem State.setI_deviceLog (s : State) (b : Bool) : (s.setI b).deviceLog = s.deviceLog := rfl
@[simp] theorem State.setI_deviceTime (s : State) (b : Bool) : (s.setI b).deviceTime = s.deviceTime := rfl
@[simp] theorem State.setI_mem (s : State) (b : Bool) : (s.setI b).mem = s.mem := rfl
@[simp] theorem State.setZ_C (s : State) (b : Bool) : (s.setZ b).C = s.C := rfl
@[simp] theorem State.setZ_DBR (s : State) (b : Bool) : (s.setZ b).DBR = s.DBR := rfl
@[simp] theorem State.setZ_D (s : State) (b : Bool) : (s.setZ b).D = s.D := rfl
@[simp] theorem State.setZ_K (s : State) (b : Bool) : (s.setZ b).K = s.K := rfl
@[simp] theorem State.setZ_PC (s : State) (b : Bool) : (s.setZ b).PC = s.PC := rfl
@[simp] theorem State.setZ_P (s : State) (b : Bool) : (s.setZ b).P = putBit s.P 1 b := rfl
@[simp] theorem State.setZ_S (s : State) (b : Bool) : (s.setZ b).S = s.S := rfl
@[simp] theorem State.setZ_X (s : State) (b : Bool) : (s.setZ b).X = s.X := rfl
@[simp] theorem State.setZ_Y (s : State) (b : Bool) : (s.setZ b).Y = s.Y := rfl
@[simp] theorem State.setZ_e (s : State) (b : Bool) : (s.setZ b).e = s.e := rfl
@[simp] theorem State.setZ_run (s : State) (b : Bool) : (s.setZ b).run = s.run := rfl
@[simp] theorem State.setZ_pending (s : State) (b : Bool) : (s.setZ b).pending = s.pending := rfl
@[simp] theorem State.setZ_events (s : State) (b : Bool) : (s.setZ b).events = s.events := rfl
@[simp] theorem State.setZ_vectorMap (s : State) (b : Bool) : (s.setZ b).vectorMap = s.vectorMap := rfl
@[simp] theorem State.setZ_freeCount (s : State) (b : Bool) : (s.setZ b).freeCount = s.freeCount := rfl
@[simp] theorem State.setZ_regions (s : State) (b : Bool) : (s.setZ b).regions = s.regions := rfl
@[simp] theorem State.setZ_deviceLog (s : State) (b : Bool) : (s.setZ b).deviceLog = s.deviceLog := rfl
@[simp] theorem State.setZ_deviceTime (s : State) (b : Bool) : (s.setZ b).deviceTime = s.deviceTime := rfl
@[simp] theorem State.setZ_mem (s : State) (b : Bool) : (s.setZ b).mem = s.mem := rfl
@[simp] theorem State.setCarry_C (s : State) (b : Bool) : (s.setCarry b).C = s.C := rfl
@[simp] theorem State.setCarry_DBR (s : State) (b : Bool) : (s.setCarry b).DBR = s.DBR := rfl
@[simp] theorem State.setCarry_D (s : State) (b : Bool) : (s.setCarry b).D = s.D := rfl
@[simp] theorem State.setCarry_K (s : State) (b : Bool) : (s.setCarry b).K = s.K := rfl
@[simp] theorem State.setCarry_PC (s : State) (b : Bool) : (s.setCarry b).PC = s.PC := rfl
@[simp] theorem State.setCarry_P (s : State) (b : Bool) : (s.setCarry b).P = putBit s.P 0 b := rfl
@[simp] theorem State.setCarry_S (s : State) (b : Bool) : (s.setCarry b).S = s.S := rfl
@[simp] theorem State.setCarry_X (s : State) (b : Bool) : (s.setCarry b).X = s.X := rfl
@[simp] theorem State.setCarry_Y (s : State) (b : Bool) : (s.setCarry b).Y = s.Y := rfl
@[simp] theorem State.setCarry_e (s : State) (b : Bool) : (s.setCarry b).e = s.e := rfl
@[simp] theorem State.setCarry_run (s : State) (b : Bool) : (s.setCarry b).run = s.run := rfl
@[simp] theorem State.setCarry_pending (s : State) (b : Bool) : (s.setCarry b).pending = s.pending := rfl
@[simp] theorem State.setCarry_events (s : State) (b : Bool) : (s.setCarry b).events = s.events := rfl
@[simp] theorem State.setCarry_vectorMap (s : State) (b : Bool) : (s.setCarry b).vectorMap = s.vectorMap := rfl
@[simp] theorem State.setCarry_freeCount (s : State) (b : Bool) : (s.setCarry b).freeCount = s.freeCount := rfl
@[simp] theorem State.setCarry_regions (s : State) (b : Bool) : (s.setCarry b).regions = s.regions := rfl
@[simp] theorem State.setCarry_deviceLog (s : State) (b : Bool) : (s.setCarry b).deviceLog = s.deviceLog := rfl
@[simp] theorem State.setCarry_deviceTime (s : State) (b : Bool) : (s.setCarry b).deviceTime = s.deviceTime := rfl
@[simp] theorem State.setCarry_mem (s : State) (b : Bool) : (s.setCarry b).mem = s.mem := rfl
@[simp] theorem State.advance_C (s : State) (len : Word) : (s.advance len).C = s.C := rfl
@[simp] theorem State.advance_DBR (s : State) (len : Word) : (s.advance len).DBR = s.DBR := rfl
@[simp] theorem State.advance_D (s : State) (len : Word) : (s.advance len).D = s.D := rfl
@[simp] theorem State.advance_K (s : State) (len : Word) : (s.advance len).K = s.K := rfl
@[simp] theorem State.advance_PC (s : State) (len : Word) : (s.advance len).PC = s.PC + len := rfl
@[simp] theorem State.advance_P (s : State) (len : Word) : (s.advance len).P = s.P := rfl
@[simp] theorem State.advance_S (s : State) (len : Word) : (s.advance len).S = s.S := rfl
@[simp] theorem State.advance_X (s : State) (len : Word) : (s.advance len).X = s.X := rfl
@[simp] theorem State.advance_Y (s : State) (len : Word) : (s.advance len).Y = s.Y := rfl
@[simp] theorem State.advance_e (s : State) (len : Word) : (s.advance len).e = s.e := rfl
@[simp] theorem State.advance_run (s : State) (len : Word) : (s.advance len).run = s.run := rfl
@[simp] theorem State.advance_pending (s : State) (len : Word) : (s.advance len).pending = s.pending := rfl
@[simp] theorem State.advance_events (s : State) (len : Word) : (s.advance len).events = s.events := rfl
@[simp] theorem State.advance_vectorMap (s : State) (len : Word) : (s.advance len).vectorMap = s.vectorMap := rfl
@[simp] theorem State.advance_freeCount (s : State) (len : Word) : (s.advance len).freeCount = s.freeCount := rfl
@[simp] theorem State.advance_regions (s : State) (len : Word) : (s.advance len).regions = s.regions := rfl
@[simp] theorem State.advance_deviceLog (s : State) (len : Word) : (s.advance len).deviceLog = s.deviceLog := rfl
@[simp] theorem State.advance_deviceTime (s : State) (len : Word) : (s.advance len).deviceTime = s.deviceTime := rfl
@[simp] theorem State.advance_mem (s : State) (len : Word) : (s.advance len).mem = s.mem := rfl

/-! ### Flags under flag updates -/

/-- Bit `j` of a byte with bit `k` replaced. -/
theorem bitAt_putBit (p : Byte) (k j : Nat) (b : Bool) (hk : k < 8) (hj : j < 8) :
    bitAt (putBit p k b) j = if j = k then b else bitAt p j := by
  interval_cases k <;> interval_cases j <;> cases b <;> simp [bitAt, putBit]

@[simp] theorem State.n_setN (s : State) (b : Bool) : (s.setN b).n = b :=
  bitAt_putBit s.P 7 7 b (by decide) (by decide)
@[simp] theorem State.v_setN (s : State) (b : Bool) : (s.setN b).v = s.v :=
  bitAt_putBit s.P 7 6 b (by decide) (by decide)
@[simp] theorem State.m_setN (s : State) (b : Bool) : (s.setN b).m = s.m :=
  bitAt_putBit s.P 7 5 b (by decide) (by decide)
@[simp] theorem State.x_setN (s : State) (b : Bool) : (s.setN b).x = s.x :=
  bitAt_putBit s.P 7 4 b (by decide) (by decide)
@[simp] theorem State.d_setN (s : State) (b : Bool) : (s.setN b).d = s.d :=
  bitAt_putBit s.P 7 3 b (by decide) (by decide)
@[simp] theorem State.i_setN (s : State) (b : Bool) : (s.setN b).i = s.i :=
  bitAt_putBit s.P 7 2 b (by decide) (by decide)
@[simp] theorem State.z_setN (s : State) (b : Bool) : (s.setN b).z = s.z :=
  bitAt_putBit s.P 7 1 b (by decide) (by decide)
@[simp] theorem State.c_setN (s : State) (b : Bool) : (s.setN b).c = s.c :=
  bitAt_putBit s.P 7 0 b (by decide) (by decide)
@[simp] theorem State.n_setV (s : State) (b : Bool) : (s.setV b).n = s.n :=
  bitAt_putBit s.P 6 7 b (by decide) (by decide)
@[simp] theorem State.v_setV (s : State) (b : Bool) : (s.setV b).v = b :=
  bitAt_putBit s.P 6 6 b (by decide) (by decide)
@[simp] theorem State.m_setV (s : State) (b : Bool) : (s.setV b).m = s.m :=
  bitAt_putBit s.P 6 5 b (by decide) (by decide)
@[simp] theorem State.x_setV (s : State) (b : Bool) : (s.setV b).x = s.x :=
  bitAt_putBit s.P 6 4 b (by decide) (by decide)
@[simp] theorem State.d_setV (s : State) (b : Bool) : (s.setV b).d = s.d :=
  bitAt_putBit s.P 6 3 b (by decide) (by decide)
@[simp] theorem State.i_setV (s : State) (b : Bool) : (s.setV b).i = s.i :=
  bitAt_putBit s.P 6 2 b (by decide) (by decide)
@[simp] theorem State.z_setV (s : State) (b : Bool) : (s.setV b).z = s.z :=
  bitAt_putBit s.P 6 1 b (by decide) (by decide)
@[simp] theorem State.c_setV (s : State) (b : Bool) : (s.setV b).c = s.c :=
  bitAt_putBit s.P 6 0 b (by decide) (by decide)
@[simp] theorem State.n_setDec (s : State) (b : Bool) : (s.setDec b).n = s.n :=
  bitAt_putBit s.P 3 7 b (by decide) (by decide)
@[simp] theorem State.v_setDec (s : State) (b : Bool) : (s.setDec b).v = s.v :=
  bitAt_putBit s.P 3 6 b (by decide) (by decide)
@[simp] theorem State.m_setDec (s : State) (b : Bool) : (s.setDec b).m = s.m :=
  bitAt_putBit s.P 3 5 b (by decide) (by decide)
@[simp] theorem State.x_setDec (s : State) (b : Bool) : (s.setDec b).x = s.x :=
  bitAt_putBit s.P 3 4 b (by decide) (by decide)
@[simp] theorem State.d_setDec (s : State) (b : Bool) : (s.setDec b).d = b :=
  bitAt_putBit s.P 3 3 b (by decide) (by decide)
@[simp] theorem State.i_setDec (s : State) (b : Bool) : (s.setDec b).i = s.i :=
  bitAt_putBit s.P 3 2 b (by decide) (by decide)
@[simp] theorem State.z_setDec (s : State) (b : Bool) : (s.setDec b).z = s.z :=
  bitAt_putBit s.P 3 1 b (by decide) (by decide)
@[simp] theorem State.c_setDec (s : State) (b : Bool) : (s.setDec b).c = s.c :=
  bitAt_putBit s.P 3 0 b (by decide) (by decide)
@[simp] theorem State.n_setI (s : State) (b : Bool) : (s.setI b).n = s.n :=
  bitAt_putBit s.P 2 7 b (by decide) (by decide)
@[simp] theorem State.v_setI (s : State) (b : Bool) : (s.setI b).v = s.v :=
  bitAt_putBit s.P 2 6 b (by decide) (by decide)
@[simp] theorem State.m_setI (s : State) (b : Bool) : (s.setI b).m = s.m :=
  bitAt_putBit s.P 2 5 b (by decide) (by decide)
@[simp] theorem State.x_setI (s : State) (b : Bool) : (s.setI b).x = s.x :=
  bitAt_putBit s.P 2 4 b (by decide) (by decide)
@[simp] theorem State.d_setI (s : State) (b : Bool) : (s.setI b).d = s.d :=
  bitAt_putBit s.P 2 3 b (by decide) (by decide)
@[simp] theorem State.i_setI (s : State) (b : Bool) : (s.setI b).i = b :=
  bitAt_putBit s.P 2 2 b (by decide) (by decide)
@[simp] theorem State.z_setI (s : State) (b : Bool) : (s.setI b).z = s.z :=
  bitAt_putBit s.P 2 1 b (by decide) (by decide)
@[simp] theorem State.c_setI (s : State) (b : Bool) : (s.setI b).c = s.c :=
  bitAt_putBit s.P 2 0 b (by decide) (by decide)
@[simp] theorem State.n_setZ (s : State) (b : Bool) : (s.setZ b).n = s.n :=
  bitAt_putBit s.P 1 7 b (by decide) (by decide)
@[simp] theorem State.v_setZ (s : State) (b : Bool) : (s.setZ b).v = s.v :=
  bitAt_putBit s.P 1 6 b (by decide) (by decide)
@[simp] theorem State.m_setZ (s : State) (b : Bool) : (s.setZ b).m = s.m :=
  bitAt_putBit s.P 1 5 b (by decide) (by decide)
@[simp] theorem State.x_setZ (s : State) (b : Bool) : (s.setZ b).x = s.x :=
  bitAt_putBit s.P 1 4 b (by decide) (by decide)
@[simp] theorem State.d_setZ (s : State) (b : Bool) : (s.setZ b).d = s.d :=
  bitAt_putBit s.P 1 3 b (by decide) (by decide)
@[simp] theorem State.i_setZ (s : State) (b : Bool) : (s.setZ b).i = s.i :=
  bitAt_putBit s.P 1 2 b (by decide) (by decide)
@[simp] theorem State.z_setZ (s : State) (b : Bool) : (s.setZ b).z = b :=
  bitAt_putBit s.P 1 1 b (by decide) (by decide)
@[simp] theorem State.c_setZ (s : State) (b : Bool) : (s.setZ b).c = s.c :=
  bitAt_putBit s.P 1 0 b (by decide) (by decide)
@[simp] theorem State.n_setCarry (s : State) (b : Bool) : (s.setCarry b).n = s.n :=
  bitAt_putBit s.P 0 7 b (by decide) (by decide)
@[simp] theorem State.v_setCarry (s : State) (b : Bool) : (s.setCarry b).v = s.v :=
  bitAt_putBit s.P 0 6 b (by decide) (by decide)
@[simp] theorem State.m_setCarry (s : State) (b : Bool) : (s.setCarry b).m = s.m :=
  bitAt_putBit s.P 0 5 b (by decide) (by decide)
@[simp] theorem State.x_setCarry (s : State) (b : Bool) : (s.setCarry b).x = s.x :=
  bitAt_putBit s.P 0 4 b (by decide) (by decide)
@[simp] theorem State.d_setCarry (s : State) (b : Bool) : (s.setCarry b).d = s.d :=
  bitAt_putBit s.P 0 3 b (by decide) (by decide)
@[simp] theorem State.i_setCarry (s : State) (b : Bool) : (s.setCarry b).i = s.i :=
  bitAt_putBit s.P 0 2 b (by decide) (by decide)
@[simp] theorem State.z_setCarry (s : State) (b : Bool) : (s.setCarry b).z = s.z :=
  bitAt_putBit s.P 0 1 b (by decide) (by decide)
@[simp] theorem State.c_setCarry (s : State) (b : Bool) : (s.setCarry b).c = b :=
  bitAt_putBit s.P 0 0 b (by decide) (by decide)

/-! ### Flags under writes that leave `P` alone -/

@[simp] theorem State.n_setC (s : State) (v : Word) : (s.setC v).n = s.n := rfl
@[simp] theorem State.v_setC (s : State) (v : Word) : (s.setC v).v = s.v := rfl
@[simp] theorem State.m_setC (s : State) (v : Word) : (s.setC v).m = s.m := rfl
@[simp] theorem State.x_setC (s : State) (v : Word) : (s.setC v).x = s.x := rfl
@[simp] theorem State.d_setC (s : State) (v : Word) : (s.setC v).d = s.d := rfl
@[simp] theorem State.i_setC (s : State) (v : Word) : (s.setC v).i = s.i := rfl
@[simp] theorem State.z_setC (s : State) (v : Word) : (s.setC v).z = s.z := rfl
@[simp] theorem State.c_setC (s : State) (v : Word) : (s.setC v).c = s.c := rfl
@[simp] theorem State.n_setDBR (s : State) (v : Byte) : (s.setDBR v).n = s.n := rfl
@[simp] theorem State.v_setDBR (s : State) (v : Byte) : (s.setDBR v).v = s.v := rfl
@[simp] theorem State.m_setDBR (s : State) (v : Byte) : (s.setDBR v).m = s.m := rfl
@[simp] theorem State.x_setDBR (s : State) (v : Byte) : (s.setDBR v).x = s.x := rfl
@[simp] theorem State.d_setDBR (s : State) (v : Byte) : (s.setDBR v).d = s.d := rfl
@[simp] theorem State.i_setDBR (s : State) (v : Byte) : (s.setDBR v).i = s.i := rfl
@[simp] theorem State.z_setDBR (s : State) (v : Byte) : (s.setDBR v).z = s.z := rfl
@[simp] theorem State.c_setDBR (s : State) (v : Byte) : (s.setDBR v).c = s.c := rfl
@[simp] theorem State.n_setD (s : State) (v : Word) : (s.setD v).n = s.n := rfl
@[simp] theorem State.v_setD (s : State) (v : Word) : (s.setD v).v = s.v := rfl
@[simp] theorem State.m_setD (s : State) (v : Word) : (s.setD v).m = s.m := rfl
@[simp] theorem State.x_setD (s : State) (v : Word) : (s.setD v).x = s.x := rfl
@[simp] theorem State.d_setD (s : State) (v : Word) : (s.setD v).d = s.d := rfl
@[simp] theorem State.i_setD (s : State) (v : Word) : (s.setD v).i = s.i := rfl
@[simp] theorem State.z_setD (s : State) (v : Word) : (s.setD v).z = s.z := rfl
@[simp] theorem State.c_setD (s : State) (v : Word) : (s.setD v).c = s.c := rfl
@[simp] theorem State.n_setK (s : State) (v : Byte) : (s.setK v).n = s.n := rfl
@[simp] theorem State.v_setK (s : State) (v : Byte) : (s.setK v).v = s.v := rfl
@[simp] theorem State.m_setK (s : State) (v : Byte) : (s.setK v).m = s.m := rfl
@[simp] theorem State.x_setK (s : State) (v : Byte) : (s.setK v).x = s.x := rfl
@[simp] theorem State.d_setK (s : State) (v : Byte) : (s.setK v).d = s.d := rfl
@[simp] theorem State.i_setK (s : State) (v : Byte) : (s.setK v).i = s.i := rfl
@[simp] theorem State.z_setK (s : State) (v : Byte) : (s.setK v).z = s.z := rfl
@[simp] theorem State.c_setK (s : State) (v : Byte) : (s.setK v).c = s.c := rfl
@[simp] theorem State.n_setPC (s : State) (v : Word) : (s.setPC v).n = s.n := rfl
@[simp] theorem State.v_setPC (s : State) (v : Word) : (s.setPC v).v = s.v := rfl
@[simp] theorem State.m_setPC (s : State) (v : Word) : (s.setPC v).m = s.m := rfl
@[simp] theorem State.x_setPC (s : State) (v : Word) : (s.setPC v).x = s.x := rfl
@[simp] theorem State.d_setPC (s : State) (v : Word) : (s.setPC v).d = s.d := rfl
@[simp] theorem State.i_setPC (s : State) (v : Word) : (s.setPC v).i = s.i := rfl
@[simp] theorem State.z_setPC (s : State) (v : Word) : (s.setPC v).z = s.z := rfl
@[simp] theorem State.c_setPC (s : State) (v : Word) : (s.setPC v).c = s.c := rfl
@[simp] theorem State.n_setRun (s : State) (v : RunState) : (s.setRun v).n = s.n := rfl
@[simp] theorem State.v_setRun (s : State) (v : RunState) : (s.setRun v).v = s.v := rfl
@[simp] theorem State.m_setRun (s : State) (v : RunState) : (s.setRun v).m = s.m := rfl
@[simp] theorem State.x_setRun (s : State) (v : RunState) : (s.setRun v).x = s.x := rfl
@[simp] theorem State.d_setRun (s : State) (v : RunState) : (s.setRun v).d = s.d := rfl
@[simp] theorem State.i_setRun (s : State) (v : RunState) : (s.setRun v).i = s.i := rfl
@[simp] theorem State.z_setRun (s : State) (v : RunState) : (s.setRun v).z = s.z := rfl
@[simp] theorem State.c_setRun (s : State) (v : RunState) : (s.setRun v).c = s.c := rfl
@[simp] theorem State.n_setPending (s : State) (v : Requests) : (s.setPending v).n = s.n := rfl
@[simp] theorem State.v_setPending (s : State) (v : Requests) : (s.setPending v).v = s.v := rfl
@[simp] theorem State.m_setPending (s : State) (v : Requests) : (s.setPending v).m = s.m := rfl
@[simp] theorem State.x_setPending (s : State) (v : Requests) : (s.setPending v).x = s.x := rfl
@[simp] theorem State.d_setPending (s : State) (v : Requests) : (s.setPending v).d = s.d := rfl
@[simp] theorem State.i_setPending (s : State) (v : Requests) : (s.setPending v).i = s.i := rfl
@[simp] theorem State.z_setPending (s : State) (v : Requests) : (s.setPending v).z = s.z := rfl
@[simp] theorem State.c_setPending (s : State) (v : Requests) : (s.setPending v).c = s.c := rfl
@[simp] theorem State.n_setEvents (s : State) (v : List PlatformEvent) : (s.setEvents v).n = s.n := rfl
@[simp] theorem State.v_setEvents (s : State) (v : List PlatformEvent) : (s.setEvents v).v = s.v := rfl
@[simp] theorem State.m_setEvents (s : State) (v : List PlatformEvent) : (s.setEvents v).m = s.m := rfl
@[simp] theorem State.x_setEvents (s : State) (v : List PlatformEvent) : (s.setEvents v).x = s.x := rfl
@[simp] theorem State.d_setEvents (s : State) (v : List PlatformEvent) : (s.setEvents v).d = s.d := rfl
@[simp] theorem State.i_setEvents (s : State) (v : List PlatformEvent) : (s.setEvents v).i = s.i := rfl
@[simp] theorem State.z_setEvents (s : State) (v : List PlatformEvent) : (s.setEvents v).z = s.z := rfl
@[simp] theorem State.c_setEvents (s : State) (v : List PlatformEvent) : (s.setEvents v).c = s.c := rfl
@[simp] theorem State.n_setFreeCount (s : State) (v : Nat) : (s.setFreeCount v).n = s.n := rfl
@[simp] theorem State.v_setFreeCount (s : State) (v : Nat) : (s.setFreeCount v).v = s.v := rfl
@[simp] theorem State.m_setFreeCount (s : State) (v : Nat) : (s.setFreeCount v).m = s.m := rfl
@[simp] theorem State.x_setFreeCount (s : State) (v : Nat) : (s.setFreeCount v).x = s.x := rfl
@[simp] theorem State.d_setFreeCount (s : State) (v : Nat) : (s.setFreeCount v).d = s.d := rfl
@[simp] theorem State.i_setFreeCount (s : State) (v : Nat) : (s.setFreeCount v).i = s.i := rfl
@[simp] theorem State.z_setFreeCount (s : State) (v : Nat) : (s.setFreeCount v).z = s.z := rfl
@[simp] theorem State.c_setFreeCount (s : State) (v : Nat) : (s.setFreeCount v).c = s.c := rfl
@[simp] theorem State.n_setRegions (s : State) (v : List Region) : (s.setRegions v).n = s.n := rfl
@[simp] theorem State.v_setRegions (s : State) (v : List Region) : (s.setRegions v).v = s.v := rfl
@[simp] theorem State.m_setRegions (s : State) (v : List Region) : (s.setRegions v).m = s.m := rfl
@[simp] theorem State.x_setRegions (s : State) (v : List Region) : (s.setRegions v).x = s.x := rfl
@[simp] theorem State.d_setRegions (s : State) (v : List Region) : (s.setRegions v).d = s.d := rfl
@[simp] theorem State.i_setRegions (s : State) (v : List Region) : (s.setRegions v).i = s.i := rfl
@[simp] theorem State.z_setRegions (s : State) (v : List Region) : (s.setRegions v).z = s.z := rfl
@[simp] theorem State.c_setRegions (s : State) (v : List Region) : (s.setRegions v).c = s.c := rfl
@[simp] theorem State.n_setDeviceLog (s : State) (v : List (Nat × Access)) : (s.setDeviceLog v).n = s.n := rfl
@[simp] theorem State.v_setDeviceLog (s : State) (v : List (Nat × Access)) : (s.setDeviceLog v).v = s.v := rfl
@[simp] theorem State.m_setDeviceLog (s : State) (v : List (Nat × Access)) : (s.setDeviceLog v).m = s.m := rfl
@[simp] theorem State.x_setDeviceLog (s : State) (v : List (Nat × Access)) : (s.setDeviceLog v).x = s.x := rfl
@[simp] theorem State.d_setDeviceLog (s : State) (v : List (Nat × Access)) : (s.setDeviceLog v).d = s.d := rfl
@[simp] theorem State.i_setDeviceLog (s : State) (v : List (Nat × Access)) : (s.setDeviceLog v).i = s.i := rfl
@[simp] theorem State.z_setDeviceLog (s : State) (v : List (Nat × Access)) : (s.setDeviceLog v).z = s.z := rfl
@[simp] theorem State.c_setDeviceLog (s : State) (v : List (Nat × Access)) : (s.setDeviceLog v).c = s.c := rfl
@[simp] theorem State.n_setDeviceTime (s : State) (v : Nat) : (s.setDeviceTime v).n = s.n := rfl
@[simp] theorem State.v_setDeviceTime (s : State) (v : Nat) : (s.setDeviceTime v).v = s.v := rfl
@[simp] theorem State.m_setDeviceTime (s : State) (v : Nat) : (s.setDeviceTime v).m = s.m := rfl
@[simp] theorem State.x_setDeviceTime (s : State) (v : Nat) : (s.setDeviceTime v).x = s.x := rfl
@[simp] theorem State.d_setDeviceTime (s : State) (v : Nat) : (s.setDeviceTime v).d = s.d := rfl
@[simp] theorem State.i_setDeviceTime (s : State) (v : Nat) : (s.setDeviceTime v).i = s.i := rfl
@[simp] theorem State.z_setDeviceTime (s : State) (v : Nat) : (s.setDeviceTime v).z = s.z := rfl
@[simp] theorem State.c_setDeviceTime (s : State) (v : Nat) : (s.setDeviceTime v).c = s.c := rfl
@[simp] theorem State.n_setMem (s : State) (v : Memory) : (s.setMem v).n = s.n := rfl
@[simp] theorem State.v_setMem (s : State) (v : Memory) : (s.setMem v).v = s.v := rfl
@[simp] theorem State.m_setMem (s : State) (v : Memory) : (s.setMem v).m = s.m := rfl
@[simp] theorem State.x_setMem (s : State) (v : Memory) : (s.setMem v).x = s.x := rfl
@[simp] theorem State.d_setMem (s : State) (v : Memory) : (s.setMem v).d = s.d := rfl
@[simp] theorem State.i_setMem (s : State) (v : Memory) : (s.setMem v).i = s.i := rfl
@[simp] theorem State.z_setMem (s : State) (v : Memory) : (s.setMem v).z = s.z := rfl
@[simp] theorem State.c_setMem (s : State) (v : Memory) : (s.setMem v).c = s.c := rfl
@[simp] theorem State.n_setX (s : State) (v : Word) : (s.setX v).n = s.n := rfl
@[simp] theorem State.v_setX (s : State) (v : Word) : (s.setX v).v = s.v := rfl
@[simp] theorem State.m_setX (s : State) (v : Word) : (s.setX v).m = s.m := rfl
@[simp] theorem State.x_setX (s : State) (v : Word) : (s.setX v).x = s.x := rfl
@[simp] theorem State.d_setX (s : State) (v : Word) : (s.setX v).d = s.d := rfl
@[simp] theorem State.i_setX (s : State) (v : Word) : (s.setX v).i = s.i := rfl
@[simp] theorem State.z_setX (s : State) (v : Word) : (s.setX v).z = s.z := rfl
@[simp] theorem State.c_setX (s : State) (v : Word) : (s.setX v).c = s.c := rfl
@[simp] theorem State.n_setY (s : State) (v : Word) : (s.setY v).n = s.n := rfl
@[simp] theorem State.v_setY (s : State) (v : Word) : (s.setY v).v = s.v := rfl
@[simp] theorem State.m_setY (s : State) (v : Word) : (s.setY v).m = s.m := rfl
@[simp] theorem State.x_setY (s : State) (v : Word) : (s.setY v).x = s.x := rfl
@[simp] theorem State.d_setY (s : State) (v : Word) : (s.setY v).d = s.d := rfl
@[simp] theorem State.i_setY (s : State) (v : Word) : (s.setY v).i = s.i := rfl
@[simp] theorem State.z_setY (s : State) (v : Word) : (s.setY v).z = s.z := rfl
@[simp] theorem State.c_setY (s : State) (v : Word) : (s.setY v).c = s.c := rfl
@[simp] theorem State.n_setS (s : State) (v : Word) : (s.setS v).n = s.n := rfl
@[simp] theorem State.v_setS (s : State) (v : Word) : (s.setS v).v = s.v := rfl
@[simp] theorem State.m_setS (s : State) (v : Word) : (s.setS v).m = s.m := rfl
@[simp] theorem State.x_setS (s : State) (v : Word) : (s.setS v).x = s.x := rfl
@[simp] theorem State.d_setS (s : State) (v : Word) : (s.setS v).d = s.d := rfl
@[simp] theorem State.i_setS (s : State) (v : Word) : (s.setS v).i = s.i := rfl
@[simp] theorem State.z_setS (s : State) (v : Word) : (s.setS v).z = s.z := rfl
@[simp] theorem State.c_setS (s : State) (v : Word) : (s.setS v).c = s.c := rfl
@[simp] theorem State.n_advance (s : State) (v : Word) : (s.advance v).n = s.n := rfl
@[simp] theorem State.v_advance (s : State) (v : Word) : (s.advance v).v = s.v := rfl
@[simp] theorem State.m_advance (s : State) (v : Word) : (s.advance v).m = s.m := rfl
@[simp] theorem State.x_advance (s : State) (v : Word) : (s.advance v).x = s.x := rfl
@[simp] theorem State.d_advance (s : State) (v : Word) : (s.advance v).d = s.d := rfl
@[simp] theorem State.i_advance (s : State) (v : Word) : (s.advance v).i = s.i := rfl
@[simp] theorem State.z_advance (s : State) (v : Word) : (s.advance v).z = s.z := rfl
@[simp] theorem State.c_advance (s : State) (v : Word) : (s.advance v).c = s.c := rfl

/-! ### Memory under register updates -/

@[simp] theorem State.read_setC (s : State) (v : Word) (a : Addr) : (s.setC v).read a = s.read a := rfl
@[simp] theorem State.read_setDBR (s : State) (v : Byte) (a : Addr) : (s.setDBR v).read a = s.read a := rfl
@[simp] theorem State.read_setD (s : State) (v : Word) (a : Addr) : (s.setD v).read a = s.read a := rfl
@[simp] theorem State.read_setK (s : State) (v : Byte) (a : Addr) : (s.setK v).read a = s.read a := rfl
@[simp] theorem State.read_setPC (s : State) (v : Word) (a : Addr) : (s.setPC v).read a = s.read a := rfl
@[simp] theorem State.read_setRun (s : State) (v : RunState) (a : Addr) : (s.setRun v).read a = s.read a := rfl
@[simp] theorem State.read_setPending (s : State) (v : Requests) (a : Addr) : (s.setPending v).read a = s.read a := rfl
@[simp] theorem State.read_setEvents (s : State) (v : List PlatformEvent) (a : Addr) : (s.setEvents v).read a = s.read a := rfl
@[simp] theorem State.read_setFreeCount (s : State) (v : Nat) (a : Addr) : (s.setFreeCount v).read a = s.read a := rfl
@[simp] theorem State.read_setX (s : State) (v : Word) (a : Addr) : (s.setX v).read a = s.read a := rfl
@[simp] theorem State.read_setY (s : State) (v : Word) (a : Addr) : (s.setY v).read a = s.read a := rfl
@[simp] theorem State.read_setS (s : State) (v : Word) (a : Addr) : (s.setS v).read a = s.read a := rfl
@[simp] theorem State.read_advance (s : State) (v : Word) (a : Addr) : (s.advance v).read a = s.read a := rfl
@[simp] theorem State.read_setP (s : State) (v : Byte) (a : Addr) : (s.setP v).read a = s.read a := rfl
@[simp] theorem State.read_setE (s : State) (v : Bool) (a : Addr) : (s.setE v).read a = s.read a := rfl
@[simp] theorem State.read_setFlags (s : State) (v : Byte) (a : Addr) : (s.setFlags v).read a = s.read a := rfl
@[simp] theorem State.read_setN (s : State) (v : Bool) (a : Addr) : (s.setN v).read a = s.read a := rfl
@[simp] theorem State.read_setV (s : State) (v : Bool) (a : Addr) : (s.setV v).read a = s.read a := rfl
@[simp] theorem State.read_setDec (s : State) (v : Bool) (a : Addr) : (s.setDec v).read a = s.read a := rfl
@[simp] theorem State.read_setI (s : State) (v : Bool) (a : Addr) : (s.setI v).read a = s.read a := rfl
@[simp] theorem State.read_setZ (s : State) (v : Bool) (a : Addr) : (s.setZ v).read a = s.read a := rfl
@[simp] theorem State.read_setCarry (s : State) (v : Bool) (a : Addr) : (s.setCarry v).read a = s.read a := rfl

/-! ### Register updates under a store -/

@[simp] theorem State.write_C (s : State) (a : Addr) (v : Byte) : (s.write a v).C = s.C := rfl
@[simp] theorem State.write_DBR (s : State) (a : Addr) (v : Byte) : (s.write a v).DBR = s.DBR := rfl
@[simp] theorem State.write_D (s : State) (a : Addr) (v : Byte) : (s.write a v).D = s.D := rfl
@[simp] theorem State.write_K (s : State) (a : Addr) (v : Byte) : (s.write a v).K = s.K := rfl
@[simp] theorem State.write_PC (s : State) (a : Addr) (v : Byte) : (s.write a v).PC = s.PC := rfl
@[simp] theorem State.write_P (s : State) (a : Addr) (v : Byte) : (s.write a v).P = s.P := rfl
@[simp] theorem State.write_S (s : State) (a : Addr) (v : Byte) : (s.write a v).S = s.S := rfl
@[simp] theorem State.write_X (s : State) (a : Addr) (v : Byte) : (s.write a v).X = s.X := rfl
@[simp] theorem State.write_Y (s : State) (a : Addr) (v : Byte) : (s.write a v).Y = s.Y := rfl
@[simp] theorem State.write_e (s : State) (a : Addr) (v : Byte) : (s.write a v).e = s.e := rfl
@[simp] theorem State.write_run (s : State) (a : Addr) (v : Byte) : (s.write a v).run = s.run := rfl
@[simp] theorem State.write_pending (s : State) (a : Addr) (v : Byte) : (s.write a v).pending = s.pending := rfl
@[simp] theorem State.write_events (s : State) (a : Addr) (v : Byte) : (s.write a v).events = s.events := rfl
@[simp] theorem State.write_vectorMap (s : State) (a : Addr) (v : Byte) : (s.write a v).vectorMap = s.vectorMap := rfl
@[simp] theorem State.write_freeCount (s : State) (a : Addr) (v : Byte) : (s.write a v).freeCount = s.freeCount := rfl
@[simp] theorem State.write_regions (s : State) (a : Addr) (v : Byte) : (s.write a v).regions = s.regions := rfl
@[simp] theorem State.write_deviceTime (s : State) (a : Addr) (v : Byte) : (s.write a v).deviceTime = s.deviceTime := rfl
@[simp] theorem State.n_write (s : State) (a : Addr) (v : Byte) : (s.write a v).n = s.n := rfl
@[simp] theorem State.v_write (s : State) (a : Addr) (v : Byte) : (s.write a v).v = s.v := rfl
@[simp] theorem State.m_write (s : State) (a : Addr) (v : Byte) : (s.write a v).m = s.m := rfl
@[simp] theorem State.x_write (s : State) (a : Addr) (v : Byte) : (s.write a v).x = s.x := rfl
@[simp] theorem State.d_write (s : State) (a : Addr) (v : Byte) : (s.write a v).d = s.d := rfl
@[simp] theorem State.i_write (s : State) (a : Addr) (v : Byte) : (s.write a v).i = s.i := rfl
@[simp] theorem State.z_write (s : State) (a : Addr) (v : Byte) : (s.write a v).z = s.z := rfl
@[simp] theorem State.c_write (s : State) (a : Addr) (v : Byte) : (s.write a v).c = s.c := rfl

end Sys2Proof.Machine
end

