-- ==== Sys2Proof/Laws/Memory.lean ====
section
/-! SUPPORT. Memory: a read after a write, and the canonical form kept by a store (`20_memory.md` R60, R83); a read of a device is made
known to it (R87). -/

namespace Sys2Proof.Machine

/-! ### The list of cells -/

/-- The form from a higher address on is the form from a lower one on. -/
theorem Memory.wfFrom_mono {lo lo' : Nat} {mem : Memory} (h : Memory.wfFrom lo mem = true) (hle : lo' ≤ lo) :
    Memory.wfFrom lo' mem = true := by
  cases mem with
  | nil => rfl
  | cons cell rest =>
    obtain ⟨a, v⟩ := cell
    simp only [Memory.wfFrom, Bool.and_eq_true, decide_eq_true_eq] at h ⊢
    exact ⟨⟨⟨hle.trans h.1.1.1, h.1.1.2⟩, h.1.2⟩, h.2⟩

/-- Below the first address of the form nothing is listed. -/
theorem Memory.read_below {lo : Nat} {mem : Memory} (h : Memory.wfFrom lo mem = true) {a : Nat} (ha : a < lo) :
    Memory.read mem a = Memory.unlisted := by
  cases mem with
  | nil => rfl
  | cons cell rest =>
    obtain ⟨b, v⟩ := cell
    simp only [Memory.wfFrom, Bool.and_eq_true, decide_eq_true_eq] at h
    have hb : a < b := by omega
    simp [Memory.read, hb, Nat.ne_of_lt hb]

/-- A write keeps the form. -/
theorem Memory.wfFrom_write {lo : Nat} {mem : Memory} (h : Memory.wfFrom lo mem = true) {a : Nat} {v : Byte}
    (hlo : lo ≤ a) (ha : a < 2 ^ 24) : Memory.wfFrom lo (Memory.write mem a v) = true := by
  induction mem generalizing lo with
  | nil =>
    by_cases hv : v = Memory.unlisted
    · simp [Memory.write, hv, Memory.wfFrom]
    · simp [Memory.write, hv, Memory.wfFrom]; omega
  | cons cell rest ih =>
    obtain ⟨b, w⟩ := cell
    simp only [Memory.wfFrom, Bool.and_eq_true, decide_eq_true_eq] at h
    obtain ⟨⟨⟨h1, h2⟩, h3⟩, h4⟩ := h
    unfold Memory.write
    split_ifs with hab hv hab' hv'
    · simp only [Memory.wfFrom, Bool.and_eq_true, decide_eq_true_eq]
      exact ⟨⟨⟨h1, h2⟩, h3⟩, h4⟩
    · simp only [Memory.wfFrom, Bool.and_eq_true, decide_eq_true_eq]
      exact ⟨⟨⟨hlo, ha⟩, hv⟩, ⟨⟨by omega, h2⟩, h3⟩, h4⟩
    · exact Memory.wfFrom_mono h4 (by omega)
    · simp only [Memory.wfFrom, Bool.and_eq_true, decide_eq_true_eq]
      exact ⟨⟨⟨hlo, ha⟩, hv'⟩, by subst hab'; exact h4⟩
    · simp only [Memory.wfFrom, Bool.and_eq_true, decide_eq_true_eq]
      exact ⟨⟨⟨h1, h2⟩, h3⟩, ih h4 (by omega)⟩

/-- A read after a write: the byte written, and every other byte as before. -/
theorem Memory.read_write {lo : Nat} {mem : Memory} (h : Memory.wfFrom lo mem = true) (a b : Nat) (v : Byte) :
    Memory.read (Memory.write mem a v) b = if b = a then v else Memory.read mem b := by
  induction mem generalizing lo with
  | nil =>
    by_cases hv : v = Memory.unlisted <;> by_cases hb : b = a <;> simp [Memory.write, Memory.read, hv, hb]
  | cons cell rest ih =>
    obtain ⟨c, w⟩ := cell
    simp only [Memory.wfFrom, Bool.and_eq_true, decide_eq_true_eq] at h
    have hrest := ih h.2
    have hbelow : ∀ d, d ≤ c → Memory.read rest d = Memory.unlisted := fun d hd => Memory.read_below h.2 (by omega)
    unfold Memory.write
    split_ifs with hac hv hb hb hac' hv' hb hb hb
    · subst hb; simp only [Memory.read]; rw [if_neg (by omega), if_pos hac, hv]
    · rfl
    · subst hb; simp [Memory.read]
    · simp only [Memory.read, if_neg hb]
      split_ifs with h1 h2 h3 <;> first | rfl | omega
    · subst hb; rw [hv']; exact hbelow _ (by omega)
    · simp only [Memory.read]
      split_ifs with h1 h2
      · omega
      · exact hbelow _ (by omega)
      · rfl
    · subst hb; simp [Memory.read]
    · simp only [Memory.read, if_neg hb]
      rw [if_neg (by omega : ¬ b = c)]
      split_ifs with h1 h2 h3 <;> first | rfl | omega
    · subst hb; simp only [Memory.read]
      rw [if_neg (by omega), if_neg hac, hrest, if_pos rfl]
    · simp only [Memory.read, hrest, if_neg hb]

/-! ### The machine's memory -/

/-- What is at an address is the same in two states with the same regions. -/
theorem State.kindAt_congr {s t : State} (h : t.regions = s.regions) (a : Addr) : t.kindAt a = s.kindAt a := by
  rw [State.kindAt, State.kindAt, h]

/-- What a read answers depends on four fields only. -/
theorem State.read_congr {s t : State} (hr : t.regions = s.regions) (hw : t.deviceLog = s.deviceLog)
    (ht : t.deviceTime = s.deviceTime) (hm : t.mem = s.mem) (a : Addr) : t.read a = s.read a := by
  rw [State.read, State.read, State.kindAt_congr hr, hw, ht, hm]

/-- A byte that is no device's is the contents of memory. -/
theorem State.read_of_ne_device {s : State} {a : Addr} (h : s.kindAt a ≠ .device) :
    s.read a = Memory.read s.mem a.toNat := by
  unfold State.read
  cases hk : s.kindAt a <;> first | rfl | exact absurd hk h

/-- A read of RAM or ROM leaves the state as it is. -/
theorem State.readByte_of_ne_device {s : State} {a : Addr} (h : s.kindAt a ≠ .device) : (s.readByte a).after = s := by
  show s.setDeviceLog (logAfter (s.kindAt a) s.deviceTime s.deviceLog (.read a)) = s
  cases hk : s.kindAt a <;> first | rfl | exact absurd hk h

/-- A read of a device is made known to it. -/
theorem State.readByte_device {s : State} {a : Addr} (h : s.kindAt a = .device) :
    (s.readByte a).after = s.setDeviceLog ((s.deviceTime, .read a) :: s.deviceLog) := by
  show s.setDeviceLog (logAfter (s.kindAt a) s.deviceTime s.deviceLog (.read a)) = _
  rw [h]; rfl

/-- A store moves no region. -/
@[simp] theorem State.kindAt_write (s : State) (a b : Addr) (v : Byte) : (s.write a v).kindAt b = s.kindAt b := rfl

/-- A store as the two fields it concerns. -/
theorem State.write_eq (s : State) (a : Addr) (v : Byte) :
    s.write a v = (s.setMem (contentsAfter (s.kindAt a) s.mem a v)).setDeviceLog
      (logAfter (s.kindAt a) s.deviceTime s.deviceLog (.write a v)) := rfl

/-- RAM takes the byte stored, and nothing else in the state changes. -/
theorem State.write_ram {s : State} {a : Addr} (h : s.kindAt a = .ram) (v : Byte) :
    s.write a v = s.setMem (Memory.write s.mem a.toNat v) := by
  rw [State.write_eq, h]; rfl

/-- ROM ignores the byte stored. -/
theorem State.write_rom {s : State} {a : Addr} (h : s.kindAt a = .rom) (v : Byte) : s.write a v = s := by
  rw [State.write_eq, h]; rfl

/-- A device is given the byte stored, and nothing else in the state changes. -/
theorem State.write_device {s : State} {a : Addr} (h : s.kindAt a = .device) (v : Byte) :
    s.write a v = s.setDeviceLog ((s.deviceTime, .write a v) :: s.deviceLog) := by
  rw [State.write_eq, h]; rfl

/-- A store keeps the canonical form. -/
theorem State.wf_write {s : State} (h : Memory.wf s.mem = true) (a : Addr) (v : Byte) :
    Memory.wf (s.write a v).mem = true := by
  cases hk : s.kindAt a
  · rw [State.write_ram hk]; exact Memory.wfFrom_write h (Nat.zero_le _) a.isLt
  · rw [State.write_rom hk]; exact h
  · rw [State.write_device hk]; exact h

/-- The byte stored in RAM is the byte read (R83). -/
theorem State.read_write_self {s : State} (h : Memory.wf s.mem = true) {a : Addr} (hk : s.kindAt a = .ram) (v : Byte) :
    (s.write a v).read a = v := by
  have hk' : (s.write a v).kindAt a = .ram := hk
  rw [State.read_of_ne_device (by simp [hk']), State.write_ram hk, State.setMem_mem, Memory.read_write h, if_pos rfl]

/-- A store leaves every other byte that is no device's as it is. -/
theorem State.read_write_ne {s : State} (h : Memory.wf s.mem = true) {a b : Addr} (v : Byte) (hne : b ≠ a)
    (hb : s.kindAt b ≠ .device) : (s.write a v).read b = s.read b := by
  have hb' : (s.write a v).kindAt b ≠ .device := hb
  rw [State.read_of_ne_device hb', State.read_of_ne_device hb]
  cases hk : s.kindAt a
  · rw [State.write_ram hk, State.setMem_mem, Memory.read_write h, if_neg (fun e => hne (BitVec.eq_of_toNat_eq e))]
  · rw [State.write_rom hk]
  · rw [State.write_device hk]; rfl

/-- The memory of `State.reset` has the canonical form. -/
theorem State.reset_wf : Memory.wf State.reset.mem = true := rfl

end Sys2Proof.Machine
end

