-- ==== Sys2Proof/Laws/Accesses.lean ====
section
/-! SUPPORT. Accesses made one after another (`20_memory.md` R80, R83, R87): no register moves, devices have had them in order, and the
frame of any list of them. Every operation over memory is such a list (`Laws/Operations.lean`). -/

namespace Sys2Proof.Machine

/-! ### No register moves -/

/-- Accesses change memory and what devices have had, nothing else. -/
theorem State.perform_eq (s : State) (l : List Access) :
    s.perform l = (s.setMem (s.perform l).mem).setDeviceLog (s.perform l).deviceLog := by
  induction l generalizing s with
  | nil => rfl
  | cons x l ih => cases x <;> · rw [State.perform, ih]; rfl

@[simp] theorem State.perform_nil (s : State) : s.perform [] = s := rfl

@[simp] theorem State.perform_C (s : State) (l : List Access) : (s.perform l).C = s.C := by
  rw [State.perform_eq]; rfl
@[simp] theorem State.perform_DBR (s : State) (l : List Access) : (s.perform l).DBR = s.DBR := by
  rw [State.perform_eq]; rfl
@[simp] theorem State.perform_D (s : State) (l : List Access) : (s.perform l).D = s.D := by
  rw [State.perform_eq]; rfl
@[simp] theorem State.perform_K (s : State) (l : List Access) : (s.perform l).K = s.K := by
  rw [State.perform_eq]; rfl
@[simp] theorem State.perform_PC (s : State) (l : List Access) : (s.perform l).PC = s.PC := by
  rw [State.perform_eq]; rfl
@[simp] theorem State.perform_P (s : State) (l : List Access) : (s.perform l).P = s.P := by
  rw [State.perform_eq]; rfl
@[simp] theorem State.perform_S (s : State) (l : List Access) : (s.perform l).S = s.S := by
  rw [State.perform_eq]; rfl
@[simp] theorem State.perform_X (s : State) (l : List Access) : (s.perform l).X = s.X := by
  rw [State.perform_eq]; rfl
@[simp] theorem State.perform_Y (s : State) (l : List Access) : (s.perform l).Y = s.Y := by
  rw [State.perform_eq]; rfl
@[simp] theorem State.perform_e (s : State) (l : List Access) : (s.perform l).e = s.e := by
  rw [State.perform_eq]; rfl
@[simp] theorem State.perform_run (s : State) (l : List Access) : (s.perform l).run = s.run := by
  rw [State.perform_eq]; rfl
@[simp] theorem State.perform_pending (s : State) (l : List Access) : (s.perform l).pending = s.pending := by
  rw [State.perform_eq]; rfl
@[simp] theorem State.perform_events (s : State) (l : List Access) : (s.perform l).events = s.events := by
  rw [State.perform_eq]; rfl
@[simp] theorem State.perform_vectorMap (s : State) (l : List Access) : (s.perform l).vectorMap = s.vectorMap := by
  rw [State.perform_eq]; rfl
@[simp] theorem State.perform_freeCount (s : State) (l : List Access) : (s.perform l).freeCount = s.freeCount := by
  rw [State.perform_eq]; rfl
@[simp] theorem State.perform_regions (s : State) (l : List Access) : (s.perform l).regions = s.regions := by
  rw [State.perform_eq]; rfl
@[simp] theorem State.perform_deviceTime (s : State) (l : List Access) : (s.perform l).deviceTime = s.deviceTime := by
  rw [State.perform_eq]; rfl
@[simp] theorem State.perform_n (s : State) (l : List Access) : (s.perform l).n = s.n := by
  rw [State.perform_eq]; rfl
@[simp] theorem State.perform_v (s : State) (l : List Access) : (s.perform l).v = s.v := by
  rw [State.perform_eq]; rfl
@[simp] theorem State.perform_m (s : State) (l : List Access) : (s.perform l).m = s.m := by
  rw [State.perform_eq]; rfl
@[simp] theorem State.perform_x (s : State) (l : List Access) : (s.perform l).x = s.x := by
  rw [State.perform_eq]; rfl
@[simp] theorem State.perform_d (s : State) (l : List Access) : (s.perform l).d = s.d := by
  rw [State.perform_eq]; rfl
@[simp] theorem State.perform_i (s : State) (l : List Access) : (s.perform l).i = s.i := by
  rw [State.perform_eq]; rfl
@[simp] theorem State.perform_z (s : State) (l : List Access) : (s.perform l).z = s.z := by
  rw [State.perform_eq]; rfl
@[simp] theorem State.perform_c (s : State) (l : List Access) : (s.perform l).c = s.c := by
  rw [State.perform_eq]; rfl
@[simp] theorem State.perform_A (s : State) (l : List Access) : (s.perform l).A = s.A := by
  rw [State.perform_eq]; rfl
@[simp] theorem State.perform_B (s : State) (l : List Access) : (s.perform l).B = s.B := by
  rw [State.perform_eq]; rfl
@[simp] theorem State.perform_XL (s : State) (l : List Access) : (s.perform l).XL = s.XL := by
  rw [State.perform_eq]; rfl
@[simp] theorem State.perform_XH (s : State) (l : List Access) : (s.perform l).XH = s.XH := by
  rw [State.perform_eq]; rfl
@[simp] theorem State.perform_YL (s : State) (l : List Access) : (s.perform l).YL = s.YL := by
  rw [State.perform_eq]; rfl
@[simp] theorem State.perform_YH (s : State) (l : List Access) : (s.perform l).YH = s.YH := by
  rw [State.perform_eq]; rfl
@[simp] theorem State.perform_SL (s : State) (l : List Access) : (s.perform l).SL = s.SL := by
  rw [State.perform_eq]; rfl
@[simp] theorem State.perform_SH (s : State) (l : List Access) : (s.perform l).SH = s.SH := by
  rw [State.perform_eq]; rfl
@[simp] theorem State.perform_DL (s : State) (l : List Access) : (s.perform l).DL = s.DL := by
  rw [State.perform_eq]; rfl
@[simp] theorem State.perform_DH (s : State) (l : List Access) : (s.perform l).DH = s.DH := by
  rw [State.perform_eq]; rfl
@[simp] theorem State.perform_acc (s : State) (l : List Access) : (s.perform l).acc = s.acc := by
  rw [State.perform_eq]; rfl
@[simp] theorem State.perform_mWidth (s : State) (l : List Access) : (s.perform l).mWidth = s.mWidth := by
  rw [State.perform_eq]; rfl
@[simp] theorem State.perform_xWidth (s : State) (l : List Access) : (s.perform l).xWidth = s.xWidth := by
  rw [State.perform_eq]; rfl
@[simp] theorem State.perform_mBits (s : State) (l : List Access) : (s.perform l).mBits = s.mBits := by
  rw [State.perform_eq]; rfl
@[simp] theorem State.perform_xBits (s : State) (l : List Access) : (s.perform l).xBits = s.xBits := by
  rw [State.perform_eq]; rfl
@[simp] theorem State.perform_accNat (s : State) (l : List Access) : (s.perform l).accNat = s.accNat := by
  rw [State.perform_eq]; rfl
@[simp] theorem State.perform_kindAt (s : State) (l : List Access) (a : Addr) : (s.perform l).kindAt a = s.kindAt a :=
  State.kindAt_congr (State.perform_regions s l) a
@[simp] theorem State.perform_stackAddr (s : State) (l : List Access) (age : Age) (k : Word) :
    (s.perform l).stackAddr age k = s.stackAddr age k := by
  rw [State.perform_eq]; rfl
@[simp] theorem State.perform_stackMoved (s : State) (l : List Access) (k : Word) :
    (s.perform l).stackMoved k = s.stackMoved k := by
  rw [State.perform_eq]; rfl

/-! ### One after another -/

theorem State.perform_append (s : State) (l l' : List Access) : s.perform (l ++ l') = (s.perform l).perform l' := by
  induction l generalizing s with
  | nil => rfl
  | cons x l ih => cases x <;> exact ih _

@[simp] theorem State.readAfter_nil (s : State) (a : Addr) : s.readAfter [] a = s.read a := rfl

/-- What a read answers after more accesses. -/
theorem State.readAfter_perform (s : State) (l l' : List Access) (a : Addr) :
    (s.perform l).readAfter l' a = s.readAfter (l ++ l') a := by
  rw [State.readAfter, State.readAfter, State.perform_append]

/-- What 16 bits answer after more accesses. -/
theorem State.wordAfter_perform (s : State) (l l' : List Access) (ea : DataAddr) :
    (s.perform l).wordAfter l' ea = s.wordAfter (l ++ l') ea := by
  rw [State.wordAfter, State.wordAfter, State.readAfter_perform, State.readAfter_perform, List.append_assoc]

@[simp] theorem readsAt_nil : readsAt [] = [] := rfl
@[simp] theorem readsAt_cons (a : Addr) (l : List Addr) : readsAt (a :: l) = .read a :: readsAt l := rfl
@[simp] theorem readsAt_append (l l' : List Addr) : readsAt (l ++ l') = readsAt l ++ readsAt l' := List.map_append

/-! ### What devices have had -/

theorem State.logged_nil (s : State) : s.logged [] = s.deviceLog := rfl

/-- One access more, before those of `l`. -/
theorem State.logged_cons (s : State) (x : Access) (l : List Access) : s.logged (x :: l) = (s.note x).logged l := by
  have hk : ∀ a, (s.note x).kindAt a = s.kindAt a := fun _ => rfl
  have ht : (s.note x).deviceTime = s.deviceTime := rfl
  have hl : (s.note x).deviceLog = logAfter (s.kindAt x.addr) s.deviceTime s.deviceLog x := rfl
  simp only [State.logged, hk, ht, hl, List.filter_cons]
  cases h : s.kindAt x.addr <;> simp [logAfter]

/-- Devices have had the accesses of their addresses, in order. -/
theorem State.perform_deviceLog (s : State) (l : List Access) : (s.perform l).deviceLog = s.logged l := by
  induction l generalizing s with
  | nil => rfl
  | cons x l ih => cases x <;> · rw [State.logged_cons, State.perform, ih]; rfl

/-- What devices have had after more accesses. -/
theorem State.logged_perform (s : State) (l l' : List Access) : (s.perform l).logged l' = s.logged (l ++ l') := by
  rw [← State.perform_deviceLog, ← State.perform_deviceLog, State.perform_append]

/-- Accesses of which none is a device's leave what devices have had. -/
theorem State.logged_of_ne_device {s : State} {l : List Access} (h : ∀ x ∈ l, s.kindAt x.addr ≠ .device) :
    s.logged l = s.deviceLog := by
  rw [State.logged, List.filter_eq_nil_iff.2 (by simpa using h)]; rfl

/-! ### Memory -/

/-- Accesses keep the canonical form. -/
theorem State.wf_perform {s : State} (h : Memory.wf s.mem = true) (l : List Access) : Memory.wf (s.perform l).mem = true := by
  induction l generalizing s with
  | nil => exact h
  | cons x l ih =>
    cases x with
    | read a => exact ih (s := (s.readByte a).after) h
    | write a v => exact ih (State.wf_write h a v)

/-- Reads leave the contents of memory. -/
@[simp] theorem State.perform_reads_mem (s : State) (l : List Addr) : (s.perform (readsAt l)).mem = s.mem := by
  induction l generalizing s with
  | nil => rfl
  | cons a l ih => exact ih (s.readByte a).after

/-- A byte that is no device's and is not written to reads as before. -/
theorem State.read_perform {s : State} (h : Memory.wf s.mem = true) {l : List Access} {a : Addr} (ha : a ∉ storesOf l)
    (hk : s.kindAt a ≠ .device) : (s.perform l).read a = s.read a := by
  induction l generalizing s with
  | nil => rfl
  | cons x l ih =>
    cases x with
    | read b =>
      refine (ih (s := (s.readByte b).after) h ha hk).trans ?_
      rw [State.read_of_ne_device hk, State.read_of_ne_device (s := (s.readByte b).after) hk]; rfl
    | write b v =>
      simp only [storesOf, List.mem_cons, not_or] at ha
      exact (ih (State.wf_write h b v) ha.2 hk).trans (State.read_write_ne h v ha.1 hk)

/-- Reads leave what every byte of RAM and ROM reads as. -/
theorem State.read_perform_reads {s : State} (l : List Addr) {a : Addr} (hk : s.kindAt a ≠ .device) :
    (s.perform (readsAt l)).read a = s.read a := by
  rw [State.read_of_ne_device hk, State.read_of_ne_device (by rwa [State.perform_kindAt]), State.perform_reads_mem]

/-- A byte of ROM reads as before, whatever is written. -/
theorem State.read_perform_rom {s : State} {l : List Access} {a : Addr} (h : Memory.wf s.mem = true) (hk : s.kindAt a = .rom) :
    (s.perform l).read a = s.read a := by
  induction l generalizing s with
  | nil => rfl
  | cons x l ih =>
    have hd : s.kindAt a ≠ .device := by simp [hk]
    cases x with
    | read b =>
      refine (ih (s := (s.readByte b).after) h hk).trans ?_
      rw [State.read_of_ne_device hd, State.read_of_ne_device (s := (s.readByte b).after) hd]; rfl
    | write b v =>
      refine (ih (State.wf_write h b v) hk).trans ?_
      by_cases e : a = b
      · subst e; rw [State.write_rom hk]
      · exact State.read_write_ne h v e hd

/-- A byte written to RAM, at an address that is not written to again, reads as what was written. -/
theorem State.read_perform_stored {s : State} (h : Memory.wf s.mem = true) {l : List Access} (hn : (storesOf l).Nodup) {a : Addr}
    {v : Byte} (hp : .write a v ∈ l) (hk : s.kindAt a = .ram) : (s.perform l).read a = v := by
  induction l generalizing s with
  | nil => simp at hp
  | cons x l ih =>
    cases x with
    | read b =>
      exact ih (s := (s.readByte b).after) h hn (by simpa using hp) hk
    | write b w =>
      simp only [storesOf, List.nodup_cons] at hn
      rcases List.mem_cons.1 hp with e | e
      · obtain ⟨rfl, rfl⟩ : a = b ∧ v = w := by simpa using e
        exact (State.read_perform (State.wf_write h a v) hn.1 (by simp [hk])).trans (State.read_write_self h hk v)
      · exact ih (State.wf_write h b w) hn.2 e hk

/-- Reads write nothing. -/
@[simp] theorem storesOf_readsAt (l : List Addr) : storesOf (readsAt l) = [] := by
  induction l with
  | nil => rfl
  | cons a l ih => exact ih

@[simp] theorem storesOf_append (l l' : List Access) : storesOf (l ++ l') = storesOf l ++ storesOf l' := by
  induction l with
  | nil => rfl
  | cons x l ih => cases x <;> simp [storesOf, ih]

/-! ### Frames -/

/-- No frame moves a region. -/
theorem Frame.kindAt {w : Writes} {s t : State} (h : Frame w s t) (a : Addr) : t.kindAt a = s.kindAt a :=
  State.kindAt_congr h.regions a

/-- Outside the stored bytes what is no device's reads as before. -/
theorem Frame.read_eq {w : Writes} {s t : State} (h : Frame w s t) {a : Addr} (ha : a ∉ storesOf w.accesses)
    (hk : s.kindAt a ≠ .device) : t.read a = s.read a := h.mem a ha fun e => absurd e hk

/-- The frame of accesses that write to no address twice. -/
theorem perform_frame {s : State} (h : Memory.wf s.mem = true) (l : List Access) (hn : (storesOf l).Nodup) :
    Frame { accesses := l } s (s.perform l) := by
  constructor <;> try first | exact .inr (by simp) | (simp; done)
  · exact State.perform_deviceLog s l
  · exact fun a v hp => ⟨State.read_perform_stored h hn hp, State.read_perform_rom h⟩
  · intro a ha hd
    by_cases hk : s.kindAt a = .device
    · have e := State.logged_of_ne_device (hd hk)
      have hk' : (s.perform l).kindAt a = .device := by rwa [State.perform_kindAt]
      simp only [State.read, hk, hk', answerOf, State.perform_deviceLog, e, State.perform_deviceTime]
    · exact State.read_perform h ha hk

/-- The frame of reads, of any memory. -/
theorem perform_reads_frame (s : State) (l : List Addr) : Frame { accesses := readsAt l } s (s.perform (readsAt l)) := by
  constructor <;> try first | exact .inr (by simp) | (simp; done)
  · exact State.perform_deviceLog s _
  · intro a v hp
    simp [readsAt] at hp
  · intro a _ hd
    by_cases hk : s.kindAt a = .device
    · have e := State.logged_of_ne_device (hd hk)
      have hk' : (s.perform (readsAt l)).kindAt a = .device := by rwa [State.perform_kindAt]
      simp only [State.read, hk, hk', answerOf, State.perform_deviceLog, e, State.perform_deviceTime]
    · exact State.read_perform_reads l hk

/-- Accesses first, then a change of registers: the frame of both. -/
theorem Frame.after {w : Writes} {l : List Access} {s t u : State} (h : Frame { accesses := l } s t) (h' : Frame w t u)
    (hw : w.accesses = []) : Frame { w with accesses := l } s u := by
  have read : ∀ a, u.read a = t.read a := fun a => h'.mem a (by simp [hw, storesOf]) (by simp [hw])
  have keep : ∀ p : Byte, p &&& ~~~0x00#8 = p := fun p => by
    rw [show ~~~0x00#8 = BitVec.allOnes 8 from rfl, BitVec.and_allOnes]
  have status : t.P = s.P := by simpa only [keep] using h.P
  exact {
    C := h'.C.imp_right fun b => b.trans (h.C.resolve_left Bool.false_ne_true)
    DBR := h'.DBR.imp_right fun b => b.trans (h.DBR.resolve_left Bool.false_ne_true)
    D := h'.D.imp_right fun b => b.trans (h.D.resolve_left Bool.false_ne_true)
    K := h'.K.imp_right fun b => b.trans (h.K.resolve_left Bool.false_ne_true)
    S := h'.S.imp_right fun b => b.trans (h.S.resolve_left Bool.false_ne_true)
    X := h'.X.imp_right fun b => b.trans (h.X.resolve_left Bool.false_ne_true)
    Y := h'.Y.imp_right fun b => b.trans (h.Y.resolve_left Bool.false_ne_true)
    e := h'.e.imp_right fun b => b.trans (h.e.resolve_left Bool.false_ne_true)
    run := h'.run.imp_right fun b => b.trans (h.run.resolve_left Bool.false_ne_true)
    pending := h'.pending.imp_right fun b => b.trans (h.pending.resolve_left Bool.false_ne_true)
    freeCount := h'.freeCount.imp_right fun b => b.trans (h.freeCount.resolve_left Bool.false_ne_true)
    events := h'.events.trans h.events
    vectorMap := h'.vectorMap.trans h.vectorMap
    regions := h'.regions.trans h.regions
    deviceTime := h'.deviceTime.trans h.deviceTime
    P := h'.P.trans (by rw [status])
    deviceLog := by
      have := h'.deviceLog
      rw [hw, State.logged_nil] at this
      exact this.trans h.deviceLog
    stored := fun a v hp => by rw [read]; exact h.stored a v hp
    mem := fun a ha hd => (read a).trans (h.mem a ha hd) }

end Sys2Proof.Machine
end

