-- ==== Sys2Proof/Laws/Values.lean ====
section
/-! SUPPORT. One lemma for each operation on values: what data, accumulator, index registers and flags are after it, as numbers
(`00_scope.md` R10, R16). -/

namespace Sys2Proof.Machine

/-! ### Bytes and words as numbers -/

@[simp] theorem lo8_toNat (w : Word) : (lo8 w).toNat = w.toNat % 256 := by simp [lo8]

@[simp] theorem hi8_toNat (w : Word) : (hi8 w).toNat = w.toNat / 256 := by
  simp [hi8, BitVec.extractLsb'_toNat, Nat.shiftRight_eq_div_pow]
  omega

@[simp] theorem word_toNat (hi lo : Byte) : (word hi lo).toNat = 256 * hi.toNat + lo.toNat := by
  simp only [word, BitVec.toNat_append]
  rw [← Nat.shiftLeft_add_eq_or_of_lt lo.isLt, Nat.shiftLeft_eq]
  omega

@[simp] theorem addr_toNat (b : Byte) (w : Word) : (addr b w).toNat = 65536 * b.toNat + w.toNat := by
  simp only [addr, BitVec.toNat_append]
  rw [← Nat.shiftLeft_add_eq_or_of_lt w.isLt, Nat.shiftLeft_eq]
  omega

@[simp] theorem zext16_toNat (b : Byte) : (zext16 b).toNat = b.toNat := by
  simp only [zext16, BitVec.toNat_setWidth]
  exact Nat.mod_eq_of_lt (by have := b.isLt; omega)

@[simp] theorem zext24_toNat (w : Word) : (zext24 w).toNat = w.toNat := by simp [zext24]; omega

@[simp] theorem lo8_word (hi lo : Byte) : lo8 (word hi lo) = lo := by
  apply BitVec.eq_of_toNat_eq; simp; omega

@[simp] theorem hi8_word (hi lo : Byte) : hi8 (word hi lo) = hi := by
  apply BitVec.eq_of_toNat_eq; simp; omega

@[simp] theorem word_hi8_lo8 (w : Word) : word (hi8 w) (lo8 w) = w := by
  apply BitVec.eq_of_toNat_eq; simp; omega

@[simp] theorem lo8_zext16 (b : Byte) : lo8 (zext16 b) = b := by
  apply BitVec.eq_of_toNat_eq; simp; exact b.isLt

@[simp] theorem hi8_zext16 (b : Byte) : hi8 (zext16 b) = 0x00#8 := by
  apply BitVec.eq_of_toNat_eq
  simp only [hi8_toNat, zext16_toNat]
  exact Nat.div_eq_of_lt b.isLt

/-- Two addresses in one bank are the same when their 16-bit parts are. -/
theorem addr_inj {b : Byte} {v w : Word} : addr b v = addr b w ↔ v = w := by
  constructor
  · intro h
    have := congrArg BitVec.toNat h
    simp at this
    exact BitVec.eq_of_toNat_eq this
  · rintro rfl; rfl

/-- Two words with one high byte are the same when their low bytes are. -/
theorem word_inj {hi lo lo' : Byte} : word hi lo = word hi lo' ↔ lo = lo' := by
  constructor
  · intro h
    have := congrArg lo8 h
    simpa using this
  · rintro rfl; rfl

@[simp] theorem bankOf_addr (b : Byte) (w : Word) : bankOf (addr b w) = b := by
  apply BitVec.eq_of_toNat_eq; simp [bankOf, Nat.shiftRight_eq_div_pow]; omega

@[simp] theorem offsetOf_addr (b : Byte) (w : Word) : offsetOf (addr b w) = w := by
  apply BitVec.eq_of_toNat_eq; simp [offsetOf]; omega

/-! ### Bits of `P` -/

/-- Putting a bit outside a mask is not seen through the mask. -/
theorem putBit_and_mask (p mask : Byte) (k : Nat) (b : Bool) (h : mask.getLsbD k = false) :
    putBit p k b &&& mask = p &&& mask := by
  apply BitVec.eq_of_getLsbD_eq
  intro j hj
  unfold putBit
  rcases Nat.lt_or_ge k 8 with hk | hk
  · interval_cases j <;> interval_cases k <;> cases b <;> simp_all
  · have hjk : j < k := by omega
    cases b <;> simp [hjk, hj]

/-! ### Widths -/

@[simp] theorem bits_mWidth (s : State) : bits s.mWidth = s.mBits := by
  unfold State.mWidth State.mBits widthOf; split <;> rfl

@[simp] theorem bits_xWidth (s : State) : bits s.xWidth = s.xBits := by
  unfold State.xWidth State.xBits widthOf; split <;> rfl

/-- Truncation to a width. -/
@[simp] theorem truncWord_toNat (w : Width) (v : Word) : (truncWord w v).toNat = v.toNat % 2 ^ bits w := by
  cases w
  · simp [truncWord, bits]
  · simp [truncWord, bits]; omega

/-- The high bit of a value that fits the width. -/
theorem hibit_iff (w : Width) (v : Word) (h : v.toNat < 2 ^ bits w) :
    hibit w v = true ↔ 2 ^ (bits w - 1) ≤ v.toNat := by
  unfold hibit BitVec.getLsbD
  rw [Nat.testBit_eq_decide_div_mod_eq]
  cases w <;> simp only [bits] at h ⊢ <;> norm_num at h ⊢ <;> omega

/-- Data read at a pair of addresses (`31_addressing_modes.md` R120). -/
@[simp] theorem readData_toNat (s : State) (w : Width) (ea : DataAddr) :
    (s.readData w ea).value.toNat = s.dataNat (bits w) ea := by
  cases w
  · simp [State.readData, State.readByte, State.dataNat, bits]
  · simp [State.readData, State.read16, State.readByte, State.dataNat, bits, State.readAfter, State.perform]; omega

/-- Data are read low byte first (`20_memory.md` R80). -/
@[simp] theorem readData_after (s : State) (w : Width) (ea : DataAddr) :
    (s.readData w ea).after = s.perform (readsAt (dataBytes (bits w) ea)) := by
  cases w <;> rfl

/-- Data of `n` bits is below `2^n`. -/
theorem dataNat_lt (s : State) (w : Width) (ea : DataAddr) : s.dataNat (bits w) ea < 2 ^ bits w := by
  cases w
  · simp [State.dataNat, bits]; omega
  · simp [State.dataNat, bits]; omega

/-! ### The accumulator -/

@[simp] theorem acc_toNat (s : State) : s.acc.toNat = s.accNat := by
  unfold State.acc State.accNat State.mWidth widthOf State.A
  split <;> simp [truncWord]

/-- `Acc` fits `M` bits. -/
theorem accNat_lt (s : State) : s.accNat < 2 ^ s.mBits := by
  unfold State.accNat State.mBits State.A
  split <;> simp <;> omega

/-- What a write to `Acc` leaves: the value at width `M`, and `B` when `m = 1` (`10_state.md` R22). -/
theorem setAcc_spec (s : State) (v : Word) :
    (s.setAcc v).accNat = v.toNat % 2 ^ s.mBits ∧ (s.m = true → (s.setAcc v).B = s.B) := by
  unfold State.setAcc State.accNat State.mBits State.A State.B
  cases hm : s.m <;> simp [hm]; omega

end Sys2Proof.Machine
end

