-- ==== Sys2Proof/Laws/Operations.lean ====
section
/-! SUPPORT. What each shared operation can do, said once: its result, and its frame in the words of `Safety.lean`. -/

namespace Sys2Proof.Machine

/-! ### The end of an instruction: `PC` moves and nothing else is seen -/

@[simp] theorem frame_advance (w : Writes) (s t : State) (len : Word) : Frame w s (t.advance len) ↔ Frame w s t :=
  ⟨fun h => { h with }, fun h => { h with }⟩
@[simp] theorem frame_setPC (w : Writes) (s t : State) (pc : Word) : Frame w s (t.setPC pc) ↔ Frame w s t :=
  ⟨fun h => { h with }, fun h => { h with }⟩
@[simp] theorem signZero_advance (n r : Nat) (t : State) (len : Word) : SignZero n r (t.advance len) ↔ SignZero n r t := Iff.rfl
@[simp] theorem accNat_advance (t : State) (len : Word) : (t.advance len).accNat = t.accNat := rfl
@[simp] theorem B_advance (t : State) (len : Word) : (t.advance len).B = t.B := rfl
@[simp] theorem dataNat_advance (t : State) (len : Word) (n : Nat) (ea : DataAddr) :
    (t.advance len).dataNat n ea = t.dataNat n ea := rfl

/-! ### `n` and `z` -/

/-- The high bit of any word, at a width. -/
theorem hibit_iff_mod (w : Width) (v : Word) : hibit w v = true ↔ 2 ^ (bits w - 1) ≤ v.toNat % 2 ^ bits w := by
  unfold hibit BitVec.getLsbD
  rw [Nat.testBit_eq_decide_div_mod_eq]
  have := v.isLt
  cases w <;> simp only [bits] <;> norm_num <;> omega

/-- `SetNZ` (R16): `n` and `z` from the value at the width, and no change but to those flags. -/
theorem setNZ_spec (s : State) (w : Width) (v : Word) :
    SignZero (bits w) (v.toNat % 2 ^ bits w) (s.setNZ w v) ∧ Frame { flags := flagsNZ } s (s.setNZ w v) := by
  refine ⟨⟨?_, ?_⟩, ?_⟩
  · simp [State.setNZ, hibit_iff_mod]
  · simp [State.setNZ, ← BitVec.toNat_inj]
  · constructor <;> try first
      | exact .inr rfl | exact .inl rfl | rfl
      | exact fun _ _ h => absurd h List.not_mem_nil | exact fun a _ _ => State.read_congr rfl rfl rfl rfl a
    simp [State.setNZ, flagsNZ, putBit_and_mask]

@[simp] theorem accNat_setNZ (s : State) (w : Width) (v : Word) : (s.setNZ w v).accNat = s.accNat := by
  simp [State.accNat, State.setNZ, State.A]

/-- A result in `Acc` with `n` and `z` from it (`42_logic_bit.md` R210, `48_load_store.md` R318). -/
theorem putAccNZ_spec (s : State) (v : Word) :
    (s.putAccNZ v).accNat = v.toNat % 2 ^ s.mBits ∧ (s.m = true → (s.putAccNZ v).B = s.B) ∧
    SignZero s.mBits (v.toNat % 2 ^ s.mBits) (s.putAccNZ v) ∧ Frame { C := true, flags := flagsNZ } s (s.putAccNZ v) := by
  have hn := setNZ_spec (s.setAcc v) s.mWidth v
  rw [bits_mWidth] at hn
  refine ⟨?_, ?_, hn.1, ?_⟩
  · rw [State.putAccNZ, accNat_setNZ]; exact (setAcc_spec s v).1
  · exact (setAcc_spec s v).2
  · exact { hn.2 with C := .inl rfl }

/-! ### `PC` under the operations: only `advance` and `setPC` move it -/

@[simp] theorem setNZ_PC (s : State) (w : Width) (v : Word) : (s.setNZ w v).PC = s.PC := rfl
@[simp] theorem putAccNZ_PC (s : State) (v : Word) : (s.putAccNZ v).PC = s.PC := rfl
@[simp] theorem setAcc_PC (s : State) (v : Word) : (s.setAcc v).PC = s.PC := rfl
@[simp] theorem putArith_PC (s : State) (r : Arith) : (s.putArith r).PC = s.PC := rfl
@[simp] theorem compare_PC (s : State) (w : Width) (reg data : Word) : (s.compare w reg data).PC = s.PC := rfl
@[simp] theorem shiftFlags_PC (s : State) (w : Width) (r : Word × Bool) : (s.shiftFlags w r).PC = s.PC := rfl
@[simp] theorem testBits_PC (s : State) (data : Word) : (s.testBits data).PC = s.PC := rfl
@[simp] theorem bitData_PC (s : State) (data : Word) : (s.bitData data).PC = s.PC := rfl

/-! ### Registers when `S` moves -/

@[simp] theorem moveS_C (s : State) (k : Word) : (s.moveS k).C = s.C := rfl
@[simp] theorem moveS_DBR (s : State) (k : Word) : (s.moveS k).DBR = s.DBR := rfl
@[simp] theorem moveS_D (s : State) (k : Word) : (s.moveS k).D = s.D := rfl
@[simp] theorem moveS_K (s : State) (k : Word) : (s.moveS k).K = s.K := rfl
@[simp] theorem moveS_P (s : State) (k : Word) : (s.moveS k).P = s.P := rfl
@[simp] theorem moveS_X (s : State) (k : Word) : (s.moveS k).X = s.X := rfl
@[simp] theorem moveS_Y (s : State) (k : Word) : (s.moveS k).Y = s.Y := rfl
@[simp] theorem moveS_e (s : State) (k : Word) : (s.moveS k).e = s.e := rfl
@[simp] theorem moveS_run (s : State) (k : Word) : (s.moveS k).run = s.run := rfl
@[simp] theorem moveS_pending (s : State) (k : Word) : (s.moveS k).pending = s.pending := rfl
@[simp] theorem moveS_events (s : State) (k : Word) : (s.moveS k).events = s.events := rfl
@[simp] theorem moveS_vectorMap (s : State) (k : Word) : (s.moveS k).vectorMap = s.vectorMap := rfl
@[simp] theorem moveS_freeCount (s : State) (k : Word) : (s.moveS k).freeCount = s.freeCount := rfl
@[simp] theorem moveS_regions (s : State) (k : Word) : (s.moveS k).regions = s.regions := rfl
@[simp] theorem moveS_deviceTime (s : State) (k : Word) : (s.moveS k).deviceTime = s.deviceTime := rfl
@[simp] theorem moveS_deviceLog (s : State) (k : Word) : (s.moveS k).deviceLog = s.deviceLog := rfl
@[simp] theorem moveS_mem (s : State) (k : Word) : (s.moveS k).mem = s.mem := rfl
@[simp] theorem read_moveS (s : State) (k : Word) (a : Addr) : (s.moveS k).read a = s.read a := rfl
@[simp] theorem moveS_PC (s : State) (k : Word) : (s.moveS k).PC = s.PC := rfl

/-! ### Bit tests -/

/-- `z` of BIT, TRB and TSB, and no change but to it (`42_logic_bit.md` R214, R217). -/
theorem testBits_spec (s : State) (data : Word) :
    ((s.testBits data).z = true ↔ s.accNat &&& data.toNat = 0) ∧ (s.testBits data).P &&& ~~~flagZ = s.P &&& ~~~flagZ := by
  refine ⟨?_, by simp [State.testBits, flagZ, putBit_and_mask]⟩
  rw [← acc_toNat, ← BitVec.toNat_and, State.testBits, State.z_setZ, decide_eq_true_iff, ← BitVec.toNat_inj]
  rfl

/-! ### Frames -/

/-- Nothing has changed from a state to itself. -/
theorem Frame.refl {w : Writes} (hw : w.accesses = []) (s : State) : Frame w s s := by
  constructor <;> try first
    | exact .inr rfl | exact .inl rfl | rfl
    | exact fun _ _ h => absurd h List.not_mem_nil | exact fun a _ _ => State.read_congr rfl rfl rfl rfl a
  · rw [hw]; rfl
  · intro a v h; rw [hw] at h; exact absurd h List.not_mem_nil

/-- What neither of two changes touches is untouched by both, where neither accesses memory. -/
theorem Frame.trans {w : Writes} {s t u : State} (h : Frame w s t) (h' : Frame w t u) (hw : w.accesses = []) : Frame w s u where
  C := h.C.elim .inl fun a => h'.C.imp_right fun b => b.trans a
  DBR := h.DBR.elim .inl fun a => h'.DBR.imp_right fun b => b.trans a
  D := h.D.elim .inl fun a => h'.D.imp_right fun b => b.trans a
  K := h.K.elim .inl fun a => h'.K.imp_right fun b => b.trans a
  S := h.S.elim .inl fun a => h'.S.imp_right fun b => b.trans a
  X := h.X.elim .inl fun a => h'.X.imp_right fun b => b.trans a
  Y := h.Y.elim .inl fun a => h'.Y.imp_right fun b => b.trans a
  e := h.e.elim .inl fun a => h'.e.imp_right fun b => b.trans a
  run := h.run.elim .inl fun a => h'.run.imp_right fun b => b.trans a
  pending := h.pending.elim .inl fun a => h'.pending.imp_right fun b => b.trans a
  freeCount := h.freeCount.elim .inl fun a => h'.freeCount.imp_right fun b => b.trans a
  events := h'.events.trans h.events
  vectorMap := h'.vectorMap.trans h.vectorMap
  regions := h'.regions.trans h.regions
  deviceTime := h'.deviceTime.trans h.deviceTime
  P := h'.P.trans h.P
  deviceLog := by
    have a := h.deviceLog
    have b := h'.deviceLog
    rw [hw] at a b ⊢
    exact b.trans a
  stored := fun a v hp => by rw [hw] at hp; exact absurd hp List.not_mem_nil
  mem := fun a ha hd => (h'.mem a ha (by simp only [h.kindAt]; exact hd)).trans (h.mem a ha hd)

/-! ### Data in memory -/

/-- A word's bytes are those of its number. -/
theorem ofNat_lo8 (v : Word) : BitVec.ofNat 8 v.toNat = lo8 v := by
  apply BitVec.eq_of_toNat_eq; simp

theorem ofNat_hi8 (v : Word) : BitVec.ofNat 8 (v.toNat / 256) = hi8 v := by
  apply BitVec.eq_of_toNat_eq; simp; omega

/-- Numbers that are the same modulo `2^n` are the same bytes to write. -/
theorem dataWrites_mod (w : Width) (ea : DataAddr) (v : Nat) :
    dataWrites (bits w) ea (v % 2 ^ bits w) = dataWrites (bits w) ea v := by
  cases w
  · simp only [dataWrites, bits, if_true]
    exact congrArg (fun b => [Access.write ea.lo b]) (BitVec.eq_of_toNat_eq (by simp))
  · have h1 : BitVec.ofNat 8 (v % 65536) = BitVec.ofNat 8 v := BitVec.eq_of_toNat_eq (by simp)
    have h2 : BitVec.ofNat 8 (v % 65536 / 256) = BitVec.ofNat 8 (v / 256) := BitVec.eq_of_toNat_eq (by simp; omega)
    simp [dataWrites, bits, h1, h2]

/-- A data write: the bytes of the value at the width, low then high (`31_addressing_modes.md` R120, `20_memory.md` R80). -/
theorem writeData_eq (s : State) (w : Width) (ea : DataAddr) (v : Word) :
    s.writeData w ea v = s.perform (dataWrites (bits w) ea v.toNat) := by
  cases w
  · simp only [dataWrites, bits, if_true, ofNat_lo8]; rfl
  · simp only [dataWrites, bits, ofNat_lo8, ofNat_hi8]; rfl

/-- A data write writes to the data's addresses. -/
@[simp] theorem storesOf_dataWrites (n : Nat) (ea : DataAddr) (v : Nat) : storesOf (dataWrites n ea v) = dataBytes n ea := by
  unfold dataWrites dataBytes; split <;> rfl

/-- It writes to no address twice. -/
theorem dataBytes_nodup (n : Nat) {ea : DataAddr} (h : ea.lo ≠ ea.hi) : (dataBytes n ea).Nodup := by
  unfold dataBytes; split <;> simp [h]

/-- The frame of reads and then of a data write. -/
theorem readsThenData_frame {s : State} (h : Memory.wf s.mem = true) (l : List Addr) (n : Nat) {ea : DataAddr}
    (hne : ea.lo ≠ ea.hi) (v : Nat) :
    Frame { accesses := readsAt l ++ dataWrites n ea v } s (s.perform (readsAt l ++ dataWrites n ea v)) :=
  perform_frame h _ (by simpa using dataBytes_nodup n hne)

/-- The byte after an address is another byte. -/
theorem flatAddr_ne (a : Addr) : (flatAddr a).lo ≠ (flatAddr a).hi := by
  show a ≠ a + 1
  intro h
  have := congrArg BitVec.toNat h
  simp at this
  omega

/-- The two bytes of a direct-page datum are two bytes, with or without wrapping. -/
theorem directPair_ne (s : State) (age : Age) (ll : Byte) (idx : Word) :
    (s.directPair age ll idx).lo ≠ (s.directPair age ll idx).hi := by
  simp only [State.directPair, State.directAddr]
  split
  · rw [ne_eq, addr_inj, word_inj]
    intro h
    have := congrArg BitVec.toNat h
    simp [BitVec.toNat_add] at this
    omega
  · rw [ne_eq, addr_inj]
    intro h
    have := congrArg BitVec.toNat h
    simp at this
    omega

/-- The two bytes of every memory mode's datum are two bytes. -/
theorem DataMode.ea_ne (mode : DataMode) (s : State) : (mode.ea s).lo ≠ (mode.ea s).hi := by
  cases mode <;> first
    | exact flatAddr_ne _
    | exact directPair_ne _ _ _ _
    | (simp only [DataMode.ea, DataMode.find, found, eaStkS, State.stackRelative, ne_eq, addr_inj]
       intro h
       have := congrArg BitVec.toNat h
       simp at this
       omega)

/-- The two bytes of every datum of a read-modify-write mode are two bytes. -/
theorem MemMode.ea_ne (mode : MemMode) (s : State) : (mode.ea s).lo ≠ (mode.ea s).hi := by
  cases mode <;> first | exact flatAddr_ne _ | exact directPair_ne _ _ _ _

/-! ### The stack -/

@[simp] theorem lo8_add (v w : Word) : lo8 (v + w) = lo8 v + lo8 w := by
  apply BitVec.eq_of_toNat_eq; simp

/-- Stack addresses at distances that differ in their low bytes are different, wrapping or not. -/
theorem stackAddr_ne (s : State) (age : Age) {j k : Word} (h : lo8 j ≠ lo8 k) : s.stackAddr age j ≠ s.stackAddr age k := by
  unfold State.stackAddr
  split
  · rw [ne_eq, addr_inj, word_inj]
    intro e; exact h (by simpa using e)
  · rw [ne_eq, addr_inj]
    intro e; exact h (congrArg lo8 (by simpa using e))

/-- A new instruction never wraps: its stack addresses are in 16-bit arithmetic in bank 0 (R73). -/
theorem stackAddr_new (s : State) (k : Word) : s.stackAddr .new k = addr 0x00#8 (s.S + k) := by
  simp [State.stackAddr, State.stackWraps]

/-- An old instruction's stack addresses after `S` has moved: the distances add (R73, R77). -/
theorem stackAddr_old_moved {s t : State} (he : t.e = s.e) {j : Word} (hS : t.S = s.stackMoved j) (k : Word) :
    t.stackAddr .old k = s.stackAddr .old (j + k) := by
  unfold State.stackAddr State.stackWraps State.SL
  rw [he, hS]
  unfold State.stackMoved State.SL
  cases s.e <;> simp [BitVec.add_assoc]

/-- The same for a new instruction, where no forcing of `SH` comes between (R73, R77). -/
theorem stackAddr_new_moved {s t : State} (he : s.e = false) {j : Word} (hS : t.S = s.stackMoved j) (k : Word) :
    t.stackAddr .new k = s.stackAddr .new (j + k) := by
  rw [stackAddr_new, stackAddr_new, hS, State.stackMoved, he]
  simp [BitVec.add_assoc]

/-- Moving `S` twice is moving it by the sum (R77). -/
theorem stackMoved_moved {s t : State} (he : t.e = s.e) {j : Word} (hS : t.S = s.stackMoved j) (k : Word) :
    t.stackMoved k = s.stackMoved (j + k) := by
  unfold State.stackMoved State.SL
  rw [he, hS]
  unfold State.stackMoved State.SL
  cases s.e <;> simp [BitVec.add_assoc]

/-- Under the forcing rule moving `S` by nothing leaves it (R36, R77). -/
theorem stackMoved_zero {s : State} (h : Forced s) : s.stackMoved 0 = s.S := by
  unfold State.stackMoved
  cases he : s.e
  · simp
  · have := (h.1 he).2.2
    rw [State.SH] at this
    apply BitVec.eq_of_toNat_eq
    have := congrArg BitVec.toNat this
    simp [State.SL] at this ⊢
    omega

/-- Moving `S` (`20_memory.md` R77). -/
@[simp] theorem moveS_S (s : State) (k : Word) : (s.moveS k).S = s.stackMoved k := by
  unfold State.moveS State.stackMoved
  simp only [State.setS_S, stackForced, State.SL]
  split <;> simp

/-- Moving `S` twice is moving it by the sum (R36, R77). -/
theorem moveS_moveS (s : State) (j k : Word) : (s.moveS j).moveS k = s.moveS (j + k) := by
  have h : (s.moveS j).stackMoved k = s.stackMoved (j + k) := stackMoved_moved (moveS_e s j) (moveS_S s j) k
  have e : ∀ (t : State) (k : Word), t.moveS k = { t with S := t.stackMoved k } := by
    intro t k; rw [← moveS_S]; rfl
  rw [e, h, e s j, e s (j + k)]

/-- Pushes are writes, after which `S` moves (R74, R75, R77). -/
theorem push8_eq (s : State) (age : Age) (v : Byte) :
    s.push8 age v = (s.perform [.write (s.stackAddr age 0) v]).moveS (-1) := rfl
theorem push16_eq (s : State) (age : Age) (v : Word) :
    s.push16 age v = (s.perform [.write (s.stackAddr age 0) (hi8 v), .write (s.stackAddr age (-1)) (lo8 v)]).moveS (-2) := rfl
theorem push24_eq (s : State) (age : Age) (b : Byte) (v : Word) :
    s.push24 age b v = (s.perform [.write (s.stackAddr age 0) b, .write (s.stackAddr age (-1)) (hi8 v),
      .write (s.stackAddr age (-2)) (lo8 v)]).moveS (-3) := rfl

/-- Pulls are reads, after which `S` moves (R76, R77). -/
theorem pull8_after (s : State) (age : Age) : (s.pull8 age).after = (s.perform (readsAt [s.stackAddr age 1])).moveS 1 := rfl
theorem pull8_value (s : State) (age : Age) : (s.pull8 age).value = s.read (s.stackAddr age 1) := rfl
theorem pull16_after (s : State) (age : Age) :
    (s.pull16 age).after = (s.perform (readsAt [s.stackAddr age 1, s.stackAddr age 2])).moveS 2 := rfl
theorem pull16_value (s : State) (age : Age) : (s.pull16 age).value = s.wordAfter [] (s.pulledPair age) := rfl
theorem pull24_after (s : State) (age : Age) :
    (s.pull24 age).after = (s.perform (readsAt [s.stackAddr age 1, s.stackAddr age 2, s.stackAddr age 3])).moveS 3 := rfl
theorem pull24_value (s : State) (age : Age) :
    (s.pull24 age).value = addr (s.readAfter (readsAt [s.stackAddr age 1, s.stackAddr age 2]) (s.stackAddr age 3))
      (s.wordAfter [] (s.pulledPair age)) := rfl

/-- A pull of a register of width `w`: its number, and the state after it (R76, `51_stack.md` R359). -/
theorem pullWidth_after (s : State) (age : Age) (w : Width) :
    (s.pullWidth age w).after = (s.perform (readsAt (dataBytes (bits w) (s.pulledPair age)))).moveS (pullStep (bits w)) := by
  cases w <;> rfl
@[simp] theorem pullWidth_toNat (s : State) (age : Age) (w : Width) :
    (s.pullWidth age w).value.toNat = s.dataNat (bits w) (s.pulledPair age) := by
  cases w
  · simp [State.pullWidth, State.dataNat, State.pulledPair, bits, pull8_value]
  · simp [State.pullWidth, State.dataNat, State.pulledPair, bits, pull16_value, State.wordAfter, State.readAfter]; omega

/-- What 16 bits are as a number. -/
theorem wordAfter_toNat (s : State) (l : List Access) (ea : DataAddr) :
    (s.wordAfter l ea).toNat = (s.readAfter l ea.lo).toNat + 256 * (s.readAfter (l ++ [.read ea.lo]) ea.hi).toNat := by
  simp [State.wordAfter]; omega

/-- Reading a byte (R87). -/
theorem readByte_value (s : State) (a : Addr) : (s.readByte a).value = s.read a := rfl
theorem readByte_after (s : State) (a : Addr) : (s.readByte a).after = s.perform (readsAt [a]) := rfl
/-- Reading 16 bits (R61, R80). -/
theorem read16_value (s : State) (ea : DataAddr) : (s.read16 ea).value = s.wordAfter [] ea := rfl
theorem read16_after (s : State) (ea : DataAddr) : (s.read16 ea).after = s.perform (readsAt [ea.lo, ea.hi]) := rfl
/-- Reading 24 bits (R61, R80). -/
theorem read24_value (s : State) (ea : DataAddr) (top : Addr) :
    (s.read24 ea top).value = addr (s.readAfter (readsAt [ea.lo, ea.hi]) top) (s.wordAfter [] ea) := rfl
theorem read24_after (s : State) (ea : DataAddr) (top : Addr) :
    (s.read24 ea top).after = s.perform (readsAt [ea.lo, ea.hi, top]) := rfl

/-! ### Writes to registers that no access looks at may be moved past accesses -/

/-- A change of the state that commutes with one read and with one write commutes with any accesses. -/
theorem perform_comm (f : State → State) (hr : ∀ s a, ((f s).readByte a).after = f (s.readByte a).after)
    (hw : ∀ s a v, (f s).write a v = f (s.write a v)) (s : State) (l : List Access) : (f s).perform l = f (s.perform l) := by
  induction l generalizing s with
  | nil => rfl
  | cons x l ih =>
    cases x with
    | read a => rw [State.perform, State.perform, hr, ih]
    | write a v => rw [State.perform, State.perform, hw, ih]

theorem perform_moveS (s : State) (k : Word) (l : List Access) : (s.moveS k).perform l = (s.perform l).moveS k :=
  perform_comm (fun s => s.moveS k) (fun _ _ => rfl) (fun _ _ _ => rfl) s l
theorem perform_setI (s : State) (b : Bool) (l : List Access) : (s.setI b).perform l = (s.perform l).setI b :=
  perform_comm (fun s => s.setI b) (fun _ _ => rfl) (fun _ _ _ => rfl) s l
theorem perform_setDec (s : State) (b : Bool) (l : List Access) : (s.setDec b).perform l = (s.perform l).setDec b :=
  perform_comm (fun s => s.setDec b) (fun _ _ => rfl) (fun _ _ _ => rfl) s l
theorem perform_setK (s : State) (k : Byte) (l : List Access) : (s.setK k).perform l = (s.perform l).setK k :=
  perform_comm (fun s => s.setK k) (fun _ _ => rfl) (fun _ _ _ => rfl) s l
theorem perform_setPC (s : State) (pc : Word) (l : List Access) : (s.setPC pc).perform l = (s.perform l).setPC pc :=
  perform_comm (fun s => s.setPC pc) (fun _ _ => rfl) (fun _ _ _ => rfl) s l

/-! ### Taking an interrupt and returning from one -/

/-- The pushes of an interrupt's frame: `K` in native mode only, the return address, `P` with bit 4 replaced in emulation mode
(`60_exceptions.md` R430, R431, R433). -/
def State.framePushes (s : State) (k : Interrupt) (ret : Word) : List Access :=
  if s.e then
    [.write (s.stackAddr .old 0) (hi8 ret), .write (s.stackAddr .old (-1)) (lo8 ret),
      .write (s.stackAddr .old (-2)) (putBit s.P 4 (breakBit k))]
  else
    [.write (s.stackAddr .old 0) s.K, .write (s.stackAddr .old (-1)) (hi8 ret), .write (s.stackAddr .old (-2)) (lo8 ret),
      .write (s.stackAddr .old (-3)) s.P]

/-- The frame's addresses are those written to. -/
theorem storesOf_framePushes (s : State) (k : Interrupt) (ret : Word) : storesOf (s.framePushes k ret) = s.frameAddrs := by
  unfold State.framePushes State.frameAddrs; split <;> rfl

/-- The frame's addresses are different. -/
theorem frameAddrs_nodup (s : State) : s.frameAddrs.Nodup := by
  have h : ∀ j k : Word, lo8 j ≠ lo8 k → s.stackAddr .old j ≠ s.stackAddr .old k := fun j k => stackAddr_ne s .old
  unfold State.frameAddrs
  split <;> simp only [List.nodup_cons, List.mem_cons, List.not_mem_nil, or_false, not_or, List.nodup_nil, and_true, not_false_eq_true]
  · exact ⟨⟨h _ _ (by decide), h _ _ (by decide)⟩, h _ _ (by decide)⟩
  · exact ⟨⟨h _ _ (by decide), h _ _ (by decide), h _ _ (by decide)⟩, ⟨h _ _ (by decide), h _ _ (by decide)⟩,
      h _ _ (by decide)⟩

/-- How far a frame moves `S`. -/
def State.frameStep (s : State) : Word := if s.e then 3 else 4

/-- The frame's pushes as writes, after which `S` moves. -/
theorem pushFrame_eq (s : State) (k : Interrupt) (ret : Word) :
    s.pushFrame k ret = (s.perform (s.framePushes k ret)).moveS (-s.frameStep) := by
  have ha : ∀ (l : List Access) (j : Word), ((s.perform l).moveS j).stackAddr .old 0 = s.stackAddr .old (j + 0) := fun l j =>
    stackAddr_old_moved (by simp) (by simp) 0
  unfold State.pushFrame State.framePushes State.frameStep State.pushedP
  cases he : s.e
  · simp only [Bool.false_eq_true, if_false]
    rw [push24_eq, push8_eq, ha, perform_moveS, moveS_moveS, ← State.perform_append]; rfl
  · simp only [if_true]
    rw [push16_eq, push8_eq, ha, perform_moveS, moveS_moveS, ← State.perform_append]; rfl

/-- The accesses of an interrupt sequence: the frame's pushes, then the vector's two reads (R430). -/
def State.entryAccesses (s : State) (k : Interrupt) (ret : Word) : List Access :=
  s.framePushes k ret ++ readsAt [(s.vectorPair (vectorOf k s.e)).lo, (s.vectorPair (vectorOf k s.e)).hi]

/-- The sequence of R430: its accesses, then the changes of registers. -/
theorem enterInterrupt_eq (s : State) (k : Interrupt) (ret : Word) :
    s.enterInterrupt k ret =
      (((((((s.perform (s.entryAccesses k ret)).moveS (-s.frameStep)).setI true).setDec false).setK 0x00#8).setPC
        (s.wordAfter (s.framePushes k ret) (s.vectorPair (vectorOf k s.e)))).setRun .running).setPending (s.pending.take k) := by
  have hl : ∀ l : List Access, (((s.pushFrame k ret).maskInterrupts).setK 0x00#8).perform l =
      ((((s.perform (s.framePushes k ret ++ l)).moveS (-s.frameStep)).setI true).setDec false).setK 0x00#8 := by
    intro l
    rw [perform_setK, State.maskInterrupts, perform_setDec, perform_setI, pushFrame_eq, perform_moveS, ← State.perform_append]
  have ha : ∀ (l : List Access) (a : Addr), (((s.pushFrame k ret).maskInterrupts).setK 0x00#8).readAfter l a =
      s.readAfter (s.framePushes k ret ++ l) a := by
    intro l a
    rw [State.readAfter, hl, State.read_setK, State.read_setDec, State.read_setI]; rfl
  have hv : (((s.pushFrame k ret).maskInterrupts).setK 0x00#8).vectorMap = s.vectorMap := by
    rw [State.setK_vectorMap, State.maskInterrupts, State.setDec_vectorMap, State.setI_vectorMap, pushFrame_eq, moveS_vectorMap,
      State.perform_vectorMap]
  have hp : (((s.pushFrame k ret).maskInterrupts).setK 0x00#8).pending = s.pending := by
    rw [State.setK_pending, State.maskInterrupts, State.setDec_pending, State.setI_pending, pushFrame_eq, moveS_pending,
      State.perform_pending]
  unfold State.enterInterrupt
  dsimp only
  rw [State.readVector, read16_value, read16_after, hl, State.wordAfter, ha, ha, hv, hp, List.append_nil]
  rfl

/-- What an interrupt sequence does (R430): the way to the handler, and the frame. -/
theorem enterInterrupt_spec {s : State} (h : Memory.wf s.mem = true) (k : Interrupt) (ret : Word) :
    (s.enterInterrupt k ret).S = s.stackMoved (-s.frameStep) ∧ (s.enterInterrupt k ret).pending = s.pending.take k ∧
    EntersThrough s (s.enterInterrupt k ret) (s.framePushes k ret) (vectorOf k s.e) := by
  have f := perform_frame h (s.entryAccesses k ret) (by
    simpa [State.entryAccesses, storesOf_framePushes, storesOf] using frameAddrs_nodup s)
  rw [enterInterrupt_eq]
  unfold EntersThrough
  rw [show s.framePushes k ret ++ readsAt [(s.vectorPair (vectorOf k s.e)).lo, (s.vectorPair (vectorOf k s.e)).hi] =
    s.entryAccesses k ret from rfl]
  generalize s.wordAfter (s.framePushes k ret) (s.vectorPair (vectorOf k s.e)) = pc
  have hS : (s.perform (s.entryAccesses k ret)).stackMoved (-s.frameStep) = s.stackMoved (-s.frameStep) := by simp
  generalize s.perform (s.entryAccesses k ret) = t at f hS
  refine ⟨by simp [hS], by simp, by simp, by simp, by simp, by simp, by simp, ?_⟩
  refine Frame.after (w := { K := true, S := true, run := true, pending := true, flags := 0x0C#8 }) f ?_ rfl
  constructor
  case P => simp [putBit_and_mask]
  case mem => intro a _ _; simp
  case stored => exact fun _ _ h => absurd h List.not_mem_nil
  case deviceLog => simp [State.logged_nil]
  all_goals first | exact .inl rfl | simp

/-- The accesses of RTI: `P`, the address, in native mode `K` (`46_software_interrupts.md` R285). -/
def State.rtiReads (s : State) : List Access :=
  readsAt (if s.e then [s.stackAddr .old 1, s.stackAddr .old 2, s.stackAddr .old 3]
    else [s.stackAddr .old 1, s.stackAddr .old 2, s.stackAddr .old 3, s.stackAddr .old 4])

/-- RTI: its reads, then the changes of registers. -/
theorem leaveInterrupt_eq (s : State) :
    s.leaveInterrupt =
      let t := (((s.perform s.rtiReads).moveS s.frameStep).setP (s.read (s.stackAddr .old 1))).setPC
        (s.wordAfter [.read (s.stackAddr .old 1)] { lo := s.stackAddr .old 2, hi := s.stackAddr .old 3 })
      if s.e then t
      else t.setK (s.readAfter (readsAt [s.stackAddr .old 1, s.stackAddr .old 2, s.stackAddr .old 3]) (s.stackAddr .old 4)) := by
  have h3 : (2 : Word) + 1 = 3 := by decide
  unfold State.leaveInterrupt State.rtiReads State.frameStep
  simp only [readByte_value, readByte_after, read16_value, read16_after, State.wordAfter_perform,
    ← State.perform_append, State.stackPair, h3]
  cases s.e <;> simp [State.readAfter]

@[simp] theorem leaveInterrupt_C (s : State) : s.leaveInterrupt.C = s.C := by
  rw [leaveInterrupt_eq]; dsimp only; split <;> simp
@[simp] theorem leaveInterrupt_DBR (s : State) : s.leaveInterrupt.DBR = s.DBR := by
  rw [leaveInterrupt_eq]; dsimp only; split <;> simp
@[simp] theorem leaveInterrupt_D (s : State) : s.leaveInterrupt.D = s.D := by
  rw [leaveInterrupt_eq]; dsimp only; split <;> simp
@[simp] theorem leaveInterrupt_e (s : State) : s.leaveInterrupt.e = s.e := by
  rw [leaveInterrupt_eq]; dsimp only; split <;> simp
@[simp] theorem leaveInterrupt_run (s : State) : s.leaveInterrupt.run = s.run := by
  rw [leaveInterrupt_eq]; dsimp only; split <;> simp
@[simp] theorem leaveInterrupt_pending (s : State) : s.leaveInterrupt.pending = s.pending := by
  rw [leaveInterrupt_eq]; dsimp only; split <;> simp
@[simp] theorem leaveInterrupt_P (s : State) : s.leaveInterrupt.P = statusForced s.e (s.read (s.stackAddr .old 1)) := by
  rw [leaveInterrupt_eq]; dsimp only; split <;> simp
@[simp] theorem leaveInterrupt_PC (s : State) : s.leaveInterrupt.PC =
    s.wordAfter [.read (s.stackAddr .old 1)] { lo := s.stackAddr .old 2, hi := s.stackAddr .old 3 } := by
  rw [leaveInterrupt_eq]; dsimp only; split <;> simp
@[simp] theorem leaveInterrupt_K (s : State) : s.leaveInterrupt.K = if s.e then s.K else
    s.readAfter (readsAt [s.stackAddr .old 1, s.stackAddr .old 2, s.stackAddr .old 3]) (s.stackAddr .old 4) := by
  rw [leaveInterrupt_eq]; dsimp only; split <;> simp
@[simp] theorem leaveInterrupt_S (s : State) : s.leaveInterrupt.S = s.stackMoved s.frameStep := by
  rw [leaveInterrupt_eq]; dsimp only; split <;> simp
@[simp] theorem leaveInterrupt_X (s : State) : s.leaveInterrupt.X = indexForced s.leaveInterrupt.x s.X := by
  rw [State.x, leaveInterrupt_P, leaveInterrupt_eq]; dsimp only; split <;> simp
@[simp] theorem leaveInterrupt_Y (s : State) : s.leaveInterrupt.Y = indexForced s.leaveInterrupt.x s.Y := by
  rw [State.x, leaveInterrupt_P, leaveInterrupt_eq]; dsimp only; split <;> simp

/-- The frame of RTI. -/
theorem leaveInterrupt_frame (s : State) :
    Frame { K := true, S := true, X := true, Y := true, flags := 0xFF#8, accesses := s.rtiReads } s s.leaveInterrupt := by
  refine Frame.after (w := { K := true, S := true, X := true, Y := true, flags := 0xFF#8 }) (perform_reads_frame s _) ?_ rfl
  rw [leaveInterrupt_eq]
  dsimp only [State.rtiReads]
  generalize s.perform _ = t
  split
  all_goals
    constructor <;> try first
      | exact .inr rfl | exact .inl rfl | rfl
      | exact fun _ _ h => absurd h List.not_mem_nil | exact fun a _ _ => State.read_congr rfl rfl rfl rfl a
    simp

/-! ### One byte of a block move -/

/-- One byte read and then written, and the changes of registers (`49_block_move.md` R331). -/
theorem moveByte_eq (s : State) (delta : Word) (tt ss : Byte) :
    s.moveByte delta tt ss =
      ((((s.perform [.read (s.moveSource ss), .write (s.moveDest tt) (s.read (s.moveSource ss))]).setDBR tt).setC (s.C - 1)).setX
        (s.X + delta)).setY (s.Y + delta) := rfl

/-- The accesses of one byte moved, and what else may change (R331). -/
theorem moveByte_frame {s : State} (h : Memory.wf s.mem = true) (delta : Word) (tt ss : Byte) :
    Frame { C := true, DBR := true, X := true, Y := true,
            accesses := [.read (s.moveSource ss), .write (s.moveDest tt) (s.read (s.moveSource ss))] } s (s.moveByte delta tt ss) := by
  refine Frame.after (w := { C := true, DBR := true, X := true, Y := true }) (perform_frame h _ (by simp [storesOf])) ?_ rfl
  rw [moveByte_eq]
  generalize s.perform _ = t
  constructor <;> first
    | exact .inr rfl | exact .inl rfl | rfl
    | exact fun _ _ h => absurd h List.not_mem_nil | exact fun a _ _ => State.read_congr rfl rfl rfl rfl a

end Sys2Proof.Machine
end

