-- ==== Sys2Proof/Laws/Arithmetic.lean ====
section
/-! SUPPORT. What the result and flag computations of `Flags.lean` give, as numbers: addition, subtraction, BCD, compares,
increments and shifts, one lemma for each (`40_adc_sbc.md`, `41_compare_incdec.md`, `43_shifts.md`). -/

namespace Sys2Proof.Machine

/-! ### Narrowing (`00_scope.md` R10, R11) -/

@[simp] theorem truncNat_toNat (w : Width) (k : Nat) : (truncNat w k).toNat = k % 2 ^ bits w := by
  cases w <;> simp [truncNat, bits]; omega

theorem truncInt_toNat (w : Width) (k : Int) : ((truncInt w k).toNat : Int) = k % 2 ^ bits w := by
  cases w <;> simp [truncInt, bits] <;> omega

/-- `signed_N` of a word that fits the width. -/
theorem signedVal_eq (w : Width) (v : Word) (h : v.toNat < 2 ^ bits w) : signedVal w v = signedNat (bits w) v.toNat := by
  unfold signedVal signedNat
  have hb := hibit_iff w v h
  by_cases hh : hibit w v = true
  · rw [if_pos hh, if_neg (by rw [hb] at hh; omega)]
  · rw [if_neg hh, if_pos (by rw [hb] at hh; omega)]

theorem overflows_iff (w : Width) (k : Int) : overflows w k = true ↔ OutOfRange (bits w) k := by
  simp [overflows, OutOfRange]

/-! ### ADC and SBC -/

/-- A result and its four flags stored: what each is then, and that nothing else has changed (R171 to R177). -/
theorem putArith_spec (s : State) (r : Arith) :
    (s.putArith r).accNat = r.result.toNat % 2 ^ s.mBits ∧ (s.m = true → (s.putArith r).B = s.B) ∧
    (s.putArith r).n = r.n ∧ (s.putArith r).v = r.v ∧ (s.putArith r).z = r.z ∧ (s.putArith r).c = r.c ∧
    Frame { C := true, flags := flagsNVZC } s (s.putArith r) := by
  have h := setAcc_spec s r.result
  refine ⟨?_, h.2, ?_, ?_, ?_, ?_, ?_⟩
  · rw [← h.1]; simp [State.putArith, State.accNat, State.A]
  on_goal 5 =>
    constructor <;> try first | exact .inr rfl | exact .inl rfl | rfl | exact fun _ _ h => absurd h List.not_mem_nil
    case mem => intro a _ _; simp [State.putArith, State.setAcc]
    simp [State.putArith, flagsNVZC, putBit_and_mask, State.setAcc]
  all_goals simp [State.putArith]

/-- BCD reading of a word that fits the width, digit by digit (R174, R177). -/
theorem bcd_eq (w : Width) (v : Word) (h : v.toNat < 2 ^ bits w) :
    bcdValid v = bcdDigits (bits w / 4) v.toNat ∧ bcdVal v = bcdNumber (bits w / 4) v.toNat := by
  cases w
  · simp [bits] at *
    have e2 : v.toNat / 256 % 16 = 0 := by omega
    have e3 : v.toNat / 4096 % 16 = 0 := by omega
    constructor
    · simp [bcdValid, bcdDigits, digit, e2, e3]
    · simp [bcdVal, bcdNumber, digit]; omega
  · constructor
    · simp [bits, bcdValid, bcdDigits, digit, Nat.div_div_eq_div_mul, Bool.and_assoc]; rfl
    · simp [bits, bcdVal, bcdNumber, digit, Nat.div_div_eq_div_mul]; omega

/-- BCD encoding of a number in range gives digits that stand for it (R174). -/
theorem bcdEnc_spec (w : Width) (k : Nat) (h : k < decimalRange w) :
    (bcdEnc k).toNat < 2 ^ bits w ∧ bcdDigits (bits w / 4) (bcdEnc k).toNat = true ∧
    bcdNumber (bits w / 4) (bcdEnc k).toNat = k := by
  have e : (bcdEnc k).toNat = k % 10 + 16 * (k / 10 % 10) + 256 * (k / 100 % 10) + 4096 * (k / 1000 % 10) := by
    simp [bcdEnc]; omega
  rw [e]
  have hk : k = k % 10 + 10 * (k / 10 % 10) + 100 * (k / 100 % 10) + 1000 * (k / 1000 % 10) + 10000 * (k / 10000) := by
    have x1 : k / 100 = k / 10 / 10 := by omega
    have x2 : k / 1000 = k / 10 / 10 / 10 := by omega
    have x3 : k / 10000 = k / 10 / 10 / 10 / 10 := by omega
    rw [x1, x2, x3]; omega
  have h0 : k % 10 < 10 := Nat.mod_lt _ (by decide)
  have h1 : k / 10 % 10 < 10 := Nat.mod_lt _ (by decide)
  have h2 : k / 100 % 10 < 10 := Nat.mod_lt _ (by decide)
  have h3 : k / 1000 % 10 < 10 := Nat.mod_lt _ (by decide)
  have h4 : k / 10000 = 0 := by cases w <;> simp [decimalRange] at h <;> omega
  have h5 : w = .w8 → k / 100 % 10 = 0 ∧ k / 1000 % 10 = 0 := by rintro rfl; simp [decimalRange] at h; omega
  clear e h
  generalize k % 10 = d0 at *
  generalize k / 10 % 10 = d1 at *
  generalize k / 100 % 10 = d2 at *
  generalize k / 1000 % 10 = d3 at *
  rw [h4] at hk
  clear h4
  subst hk
  cases w
  · obtain ⟨rfl, rfl⟩ := h5 rfl
    simp [bits, bcdDigits, bcdNumber]; omega
  · clear h5; simp [bits, bcdDigits, bcdNumber]
    have a1 : (d0 + 16 * d1 + 256 * d2 + 4096 * d3) % 16 = d0 := by omega
    have a2 : (d0 + 16 * d1 + 256 * d2 + 4096 * d3) / 16 = d1 + 16 * d2 + 256 * d3 := by omega
    have a3 : (d1 + 16 * d2 + 256 * d3) % 16 = d1 := by omega
    have a4 : (d1 + 16 * d2 + 256 * d3) / 16 = d2 + 16 * d3 := by omega
    have a5 : (d2 + 16 * d3) % 16 = d2 := by omega
    have a6 : (d2 + 16 * d3) / 16 = d3 := by omega
    have a7 : d3 % 16 = d3 := by omega
    rw [a1, a2, a3, a4, a5, a6, a7]; omega

theorem decimalRange_eq (w : Width) : decimalRange w = 10 ^ (bits w / 4) := by cases w <;> rfl

/-! ### Compares, increments, decrements -/

/-- The flags of a compare of numbers that fit the width, and that nothing else has changed (R190 to R193). -/
theorem compare_spec (s : State) (w : Width) (reg data : Word) (hr : reg.toNat < 2 ^ bits w) (hd : data.toNat < 2 ^ bits w) :
    ((s.compare w reg data).c = true ↔ data.toNat ≤ reg.toNat) ∧
    ((s.compare w reg data).z = true ↔ reg.toNat = data.toNat) ∧
    ((s.compare w reg data).n = true ↔ 2 ^ (bits w - 1) ≤ (reg.toNat + 2 ^ bits w - data.toNat) % 2 ^ bits w) ∧
    Frame { flags := flagsNZC } s (s.compare w reg data) := by
  obtain ⟨⟨h1, h2⟩, h3⟩ := setNZ_spec s w (truncInt w (reg.toNat - data.toNat))
  have e := truncInt_toNat w (reg.toNat - data.toNat)
  have e' : (truncInt w (reg.toNat - data.toNat)).toNat % 2 ^ bits w = (reg.toNat + 2 ^ bits w - data.toNat) % 2 ^ bits w := by
    zify
    rw [e, Nat.cast_sub (by omega)]; push_cast
    rw [Int.emod_emod, show (reg.toNat : Int) + 2 ^ bits w - data.toNat = (reg.toNat - data.toNat) + 2 ^ bits w by ring]
    simp
  refine ⟨by simp [State.compare], ?_, ?_, ?_⟩
  · simp only [State.compare, State.z_setCarry]
    rw [h2, e']
    generalize 2 ^ bits w = N at *
    rcases Nat.lt_or_ge reg.toNat data.toNat with hh | hh
    · rw [Nat.mod_eq_of_lt (by omega)]; omega
    · rw [show reg.toNat + N - data.toNat = (reg.toNat - data.toNat) + N by omega, Nat.add_mod_right,
        Nat.mod_eq_of_lt (by omega)]
      omega
  · simp only [State.compare, State.n_setCarry]
    rw [h1, e']
  · refine { h3 with P := ?_ }
    simp [State.compare, State.setNZ, flagsNZC, putBit_and_mask]

/-- One more at a width (R200). -/
theorem incValue_toNat (w : Width) (v : Word) : (incValue w v).toNat = (v.toNat + 1) % 2 ^ bits w := by
  simp only [incValue, truncWord_toNat]
  cases w <;> simp [bits]

/-- One less at a width (R200). -/
theorem decValue_toNat (w : Width) (v : Word) : (decValue w v).toNat = (v.toNat + 2 ^ bits w - 1) % 2 ^ bits w := by
  simp only [decValue, truncWord_toNat]
  have := v.isLt
  cases w <;> simp [bits, BitVec.toNat_sub] at * <;> omega

/-! ### Shifts: the result, that it fits the width, and the bit shifted out -/

/-- ASL (R231, R235). -/
theorem aslValue_spec (w : Width) (v : Word) (h : v.toNat < 2 ^ bits w) :
    (aslValue w v).1.toNat = 2 * v.toNat % 2 ^ bits w ∧ (aslValue w v).1.toNat < 2 ^ bits w ∧
    ((aslValue w v).2 = true ↔ 2 ^ (bits w - 1) ≤ v.toNat) := by
  have e : (truncWord w (v <<< 1)).toNat = 2 * v.toNat % 2 ^ bits w := by
    rw [truncWord_toNat]
    cases w <;> simp [bits, Nat.shiftLeft_eq] at * <;> omega
  refine ⟨e, ?_, hibit_iff w v h⟩
  show (truncWord w (v <<< 1)).toNat < _
  rw [e]; exact Nat.mod_lt _ (by positivity)

/-- LSR (R232). -/
theorem lsrValue_spec (w : Width) (v : Word) (h : v.toNat < 2 ^ bits w) :
    (lsrValue w v).1.toNat = v.toNat / 2 ∧ (lsrValue w v).1.toNat < 2 ^ bits w ∧
    ((lsrValue w v).2 = true ↔ v.toNat % 2 = 1) := by
  have e : (v >>> 1).toNat = v.toNat / 2 := by simp [Nat.shiftRight_eq_div_pow]
  refine ⟨e, ?_, ?_⟩
  · show (v >>> 1).toNat < _
    rw [e]; omega
  · simp [lsrValue, BitVec.getLsbD, Nat.testBit_zero]

/-- ROL (R233). -/
theorem rolValue_spec (w : Width) (c : Bool) (v : Word) (h : v.toNat < 2 ^ bits w) :
    (rolValue w c v).1.toNat = 2 * v.toNat % 2 ^ bits w + carryNat c ∧ (rolValue w c v).1.toNat < 2 ^ bits w ∧
    ((rolValue w c v).2 = true ↔ 2 ^ (bits w - 1) ≤ v.toNat) := by
  obtain ⟨ha, -, hb⟩ := aslValue_spec w v h
  have e : (rolValue w c v).1.toNat = 2 * v.toNat % 2 ^ bits w + carryNat c := by
    simp only [aslValue] at ha
    simp only [rolValue, BitVec.toNat_or, ha]
    cases c
    · simp [carryNat]
    · simp [carryNat]
      have ev : (2 * v.toNat % 2 ^ bits w) = 2 * (v.toNat % 2 ^ (bits w - 1)) := by cases w <;> simp [bits] <;> omega
      rw [ev]
      have := Nat.two_pow_add_eq_or_of_lt (i := 1) (b := 1) (by decide) (v.toNat % 2 ^ (bits w - 1))
      simp at this; omega
  refine ⟨e, ?_, hb⟩
  rw [e]
  have : carryNat c ≤ 1 := by cases c <;> simp [carryNat]
  cases w <;> simp [bits] at * <;> omega

/-- ROR (R234). -/
theorem rorValue_spec (w : Width) (c : Bool) (v : Word) (h : v.toNat < 2 ^ bits w) :
    (rorValue w c v).1.toNat = v.toNat / 2 + carryNat c * 2 ^ (bits w - 1) ∧ (rorValue w c v).1.toNat < 2 ^ bits w ∧
    ((rorValue w c v).2 = true ↔ v.toNat % 2 = 1) := by
  obtain ⟨ha, -, hb⟩ := lsrValue_spec w v h
  have e : (rorValue w c v).1.toNat = v.toNat / 2 + carryNat c * 2 ^ (bits w - 1) := by
    simp only [lsrValue] at ha
    simp only [rorValue, BitVec.toNat_or, ha]
    cases c
    · simp [carryNat]
    · simp only [carryNat, if_true]
      cases w
      · simp [bits] at *
        have := Nat.two_pow_add_eq_or_of_lt (i := 7) (b := v.toNat / 2) (by omega) 1
        simp at this; rw [Nat.or_comm]; omega
      · simp [bits] at *
        have := Nat.two_pow_add_eq_or_of_lt (i := 15) (b := v.toNat / 2) (by omega) 1
        simp at this; rw [Nat.or_comm]; omega
  refine ⟨e, ?_, hb⟩
  rw [e]
  have : carryNat c ≤ 1 := by cases c <;> simp [carryNat]
  cases w <;> simp [bits] at * <;> omega

/-- The flags of a shift, and that nothing else has changed (R230). -/
theorem shiftFlags_spec (s : State) (w : Width) (r : Word × Bool) :
    SignZero (bits w) (r.1.toNat % 2 ^ bits w) (s.shiftFlags w r) ∧ (s.shiftFlags w r).c = r.2 ∧
    Frame { flags := flagsNZC } s (s.shiftFlags w r) := by
  obtain ⟨h1, h2⟩ := setNZ_spec s w r.1
  refine ⟨?_, by simp [State.shiftFlags], { h2 with P := ?_ }⟩
  · simpa [SignZero, State.shiftFlags] using h1
  · simp [State.shiftFlags, State.setNZ, flagsNZC, putBit_and_mask]

end Sys2Proof.Machine
end

