-- ==== Sys2Proof/Laws/Invariant.lean ====
section
/-! SUPPORT. The forcing rule (`10_state.md` R36) under the writes it concerns, and what begins a step
(`60_exceptions.md` R440 to R442). -/

namespace Sys2Proof.Machine

/-! ### The forcing rule -/

/-- The rule looks at five fields only. -/
theorem Forced.of_eq {s t : State} (h : Forced s) (he : t.e = s.e) (hP : t.P &&& 0x30#8 = s.P &&& 0x30#8) (hS : t.S = s.S)
    (hX : t.X = s.X) (hY : t.Y = s.Y) : Forced t := by
  have hb : ∀ k : Nat, k = 4 ∨ k = 5 → bitAt t.P k = bitAt s.P k := by
    intro k hk
    have hq : ∀ p : Byte, (p &&& 0x30#8).getLsbD k = p.getLsbD k := by
      intro p
      rcases hk with rfl | rfl <;> simp
    rw [bitAt, bitAt, ← hq t.P, ← hq s.P, hP]
  have hm : t.m = s.m := hb 5 (.inr rfl)
  have hx : t.x = s.x := hb 4 (.inl rfl)
  simp only [Forced, State.SH, State.XH, State.YH] at h ⊢
  rw [he, hm, hx, hS, hX, hY]
  exact h

@[simp] theorem hi8_stackForced (w : Word) : hi8 (stackForced true w) = 0x01#8 := by simp [stackForced]

@[simp] theorem hi8_indexForced (w : Word) : hi8 (indexForced true w) = 0x00#8 := by simp [indexForced]

theorem bitAt_statusForced (p : Byte) : bitAt (statusForced true p) 5 = true ∧ bitAt (statusForced true p) 4 = true := by
  simp [statusForced, bitAt]

/-- A write to `X` keeps the rule. -/
theorem Forced.setX {s : State} (h : Forced s) (w : Word) : Forced (s.setX w) := by
  refine ⟨h.1, fun hx => ⟨?_, (h.2 hx).2⟩⟩
  have hx' : s.x = true := hx
  show hi8 (indexForced s.x w) = _
  rw [hx', hi8_indexForced]

/-- A write to `Y` keeps the rule. -/
theorem Forced.setY {s : State} (h : Forced s) (w : Word) : Forced (s.setY w) := by
  refine ⟨h.1, fun hx => ⟨(h.2 hx).1, ?_⟩⟩
  have hx' : s.x = true := hx
  show hi8 (indexForced s.x w) = _
  rw [hx', hi8_indexForced]

/-- A write to `S` keeps the rule. -/
theorem Forced.setS {s : State} (h : Forced s) (w : Word) : Forced (s.setS w) := by
  refine ⟨fun he => ⟨(h.1 he).1, (h.1 he).2.1, ?_⟩, h.2⟩
  have he' : s.e = true := he
  show hi8 (stackForced s.e w) = _
  rw [he', hi8_stackForced]

/-- A write to all of `P` keeps the rule, whatever is written. -/
theorem Forced.setP {s : State} (h : Forced s) (p : Byte) : Forced (s.setP p) := by
  refine ⟨fun he => ⟨?_, ?_, (h.1 he).2.2⟩, fun hx => ?_⟩
  · have he' : s.e = true := he
    show bitAt (statusForced s.e p) 5 = true
    rw [he', (bitAt_statusForced p).1]
  · have he' : s.e = true := he
    show bitAt (statusForced s.e p) 4 = true
    rw [he', (bitAt_statusForced p).2]
  · have hx' : bitAt (statusForced s.e p) 4 = true := hx
    exact ⟨by rw [State.XH, State.setP_X, hx', hi8_indexForced], by rw [State.YH, State.setP_Y, hx', hi8_indexForced]⟩

/-- A write to `e` makes the rule hold, from any state that has it (XCE, `53_transfers.md` R406). -/
theorem Forced.setE {s : State} (b : Bool) : Forced (s.setE b) := by
  refine ⟨fun he => ?_, fun hx => ?_⟩
  · have hb : b = true := he
    subst hb
    exact ⟨(bitAt_statusForced _).1, (bitAt_statusForced _).2, hi8_stackForced _⟩
  · have hx' : bitAt (statusForced b s.P) 4 = true := hx
    exact ⟨by rw [State.XH, State.setE_X, hx', hi8_indexForced], by rw [State.YH, State.setE_Y, hx', hi8_indexForced]⟩

/-! ### What begins a step -/

@[simp] theorem poll_mem (s : State) : s.poll.mem = s.mem := by unfold State.poll State.takeEvent; split <;> rfl
@[simp] theorem poll_P (s : State) : s.poll.P = s.P := by unfold State.poll State.takeEvent; split <;> rfl
@[simp] theorem poll_PC (s : State) : s.poll.PC = s.PC := by unfold State.poll State.takeEvent; split <;> rfl
@[simp] theorem poll_K (s : State) : s.poll.K = s.K := by unfold State.poll State.takeEvent; split <;> rfl
@[simp] theorem poll_e (s : State) : s.poll.e = s.e := by unfold State.poll State.takeEvent; split <;> rfl
@[simp] theorem poll_S (s : State) : s.poll.S = s.S := by unfold State.poll State.takeEvent; split <;> rfl
@[simp] theorem poll_X (s : State) : s.poll.X = s.X := by unfold State.poll State.takeEvent; split <;> rfl
@[simp] theorem poll_Y (s : State) : s.poll.Y = s.Y := by unfold State.poll State.takeEvent; split <;> rfl
@[simp] theorem poll_run (s : State) : s.poll.run = s.run := by unfold State.poll State.takeEvent; split <;> rfl
@[simp] theorem poll_regions (s : State) : s.poll.regions = s.regions := by unfold State.poll State.takeEvent; split <;> rfl
@[simp] theorem poll_deviceLog (s : State) : s.poll.deviceLog = s.deviceLog := by
  unfold State.poll State.takeEvent; split <;> rfl
@[simp] theorem poll_deviceTime (s : State) : s.poll.deviceTime = s.deviceTime + 1 := rfl
@[simp] theorem poll_vectorMap (s : State) : s.poll.vectorMap = s.vectorMap := by unfold State.poll State.takeEvent; split <;> rfl

/-- The interrupt that a step takes is the one that recognition names (R440 to R442). -/
theorem action_of_takes {s : State} {k : Interrupt} (h : Takes s k) : s.action = .interrupt k := by
  obtain ⟨h1, h2, h3⟩ := h
  unfold State.action Requests.first
  cases hr : s.run <;> cases k <;> simp_all

/-- A pending RESET is acted on in every `run` state (`52_stp_wai.md` R382, `60_exceptions.md` R442). -/
theorem action_of_reset {s : State} (h : s.pending.reset = true) : s.action = .reset := by
  unfold State.action Requests.first
  cases hr : s.run <;> simp [h]

end Sys2Proof.Machine
end

