-- ==== Sys2Proof/Laws/Fetch.lean ====
section
/-! SUPPORT. The fetch: how many bytes belong to an opcode, and what reading code does (`20_memory.md` R80, R87, `30_encoding.md` R91
to R94). -/

namespace Sys2Proof.Machine

/-! ### Lengths: the operand bytes do not change them (R91, R93, R94), row by row of the opcode map and then for every opcode -/

theorem instrLen_row0 (m x : Bool) (b1 b2 b3 : Byte) (low : Nat) :
    instrLen m x (decodeRow0 m b1 b2 b3 low) =
      [1, 2, 2, 2, 2, 2, 2, 2, 1, 1 + immByteCount m, 1, 1, 3, 3, 3].getD low 4 := by
  match low with
  | 0 | 1 | 2 | 3 | 4 | 5 | 6 | 7 | 8 | 9 | 10 | 11 | 12 | 13 | 14 | _ + 15 => rfl

theorem instrLen_row1 (m x : Bool) (b1 b2 b3 : Byte) (low : Nat) :
    instrLen m x (decodeRow1 b1 b2 b3 low) =
      [2, 2, 2, 2, 2, 2, 2, 2, 1, 3, 1, 1, 3, 3, 3].getD low 4 := by
  match low with
  | 0 | 1 | 2 | 3 | 4 | 5 | 6 | 7 | 8 | 9 | 10 | 11 | 12 | 13 | 14 | _ + 15 => rfl

theorem instrLen_row2 (m x : Bool) (b1 b2 b3 : Byte) (low : Nat) :
    instrLen m x (decodeRow2 m b1 b2 b3 low) =
      [3, 2, 4, 2, 2, 2, 2, 2, 1, 1 + immByteCount m, 1, 1, 3, 3, 3].getD low 4 := by
  match low with
  | 0 | 1 | 2 | 3 | 4 | 5 | 6 | 7 | 8 | 9 | 10 | 11 | 12 | 13 | 14 | _ + 15 => rfl

theorem instrLen_row3 (m x : Bool) (b1 b2 b3 : Byte) (low : Nat) :
    instrLen m x (decodeRow3 b1 b2 b3 low) =
      [2, 2, 2, 2, 2, 2, 2, 2, 1, 3, 1, 1, 3, 3, 3].getD low 4 := by
  match low with
  | 0 | 1 | 2 | 3 | 4 | 5 | 6 | 7 | 8 | 9 | 10 | 11 | 12 | 13 | 14 | _ + 15 => rfl

theorem instrLen_row4 (m x : Bool) (b1 b2 b3 : Byte) (low : Nat) :
    instrLen m x (decodeRow4 m b1 b2 b3 low) =
      [1, 2, 2, 2, 3, 2, 2, 2, 1, 1 + immByteCount m, 1, 1, 3, 3, 3].getD low 4 := by
  match low with
  | 0 | 1 | 2 | 3 | 4 | 5 | 6 | 7 | 8 | 9 | 10 | 11 | 12 | 13 | 14 | _ + 15 => rfl

theorem instrLen_row5 (m x : Bool) (b1 b2 b3 : Byte) (low : Nat) :
    instrLen m x (decodeRow5 b1 b2 b3 low) =
      [2, 2, 2, 2, 3, 2, 2, 2, 1, 3, 1, 1, 4, 3, 3].getD low 4 := by
  match low with
  | 0 | 1 | 2 | 3 | 4 | 5 | 6 | 7 | 8 | 9 | 10 | 11 | 12 | 13 | 14 | _ + 15 => rfl

theorem instrLen_row6 (m x : Bool) (b1 b2 b3 : Byte) (low : Nat) :
    instrLen m x (decodeRow6 m b1 b2 b3 low) =
      [1, 2, 3, 2, 2, 2, 2, 2, 1, 1 + immByteCount m, 1, 1, 3, 3, 3].getD low 4 := by
  match low with
  | 0 | 1 | 2 | 3 | 4 | 5 | 6 | 7 | 8 | 9 | 10 | 11 | 12 | 13 | 14 | _ + 15 => rfl

theorem instrLen_row7 (m x : Bool) (b1 b2 b3 : Byte) (low : Nat) :
    instrLen m x (decodeRow7 b1 b2 b3 low) =
      [2, 2, 2, 2, 2, 2, 2, 2, 1, 3, 1, 1, 3, 3, 3].getD low 4 := by
  match low with
  | 0 | 1 | 2 | 3 | 4 | 5 | 6 | 7 | 8 | 9 | 10 | 11 | 12 | 13 | 14 | _ + 15 => rfl

theorem instrLen_row8 (m x : Bool) (b1 b2 b3 : Byte) (low : Nat) :
    instrLen m x (decodeRow8 m b1 b2 b3 low) =
      [2, 2, 3, 2, 2, 2, 2, 2, 1, 1 + immByteCount m, 1, 1, 3, 3, 3].getD low 4 := by
  match low with
  | 0 | 1 | 2 | 3 | 4 | 5 | 6 | 7 | 8 | 9 | 10 | 11 | 12 | 13 | 14 | _ + 15 => rfl

theorem instrLen_row9 (m x : Bool) (b1 b2 b3 : Byte) (low : Nat) :
    instrLen m x (decodeRow9 b1 b2 b3 low) =
      [2, 2, 2, 2, 2, 2, 2, 2, 1, 3, 1, 1, 3, 3, 3].getD low 4 := by
  match low with
  | 0 | 1 | 2 | 3 | 4 | 5 | 6 | 7 | 8 | 9 | 10 | 11 | 12 | 13 | 14 | _ + 15 => rfl

theorem instrLen_rowA (m x : Bool) (b1 b2 b3 : Byte) (low : Nat) :
    instrLen m x (decodeRowA m x b1 b2 b3 low) =
      [1 + immByteCount x, 2, 1 + immByteCount x, 2, 2, 2, 2, 2, 1, 1 + immByteCount m, 1, 1, 3, 3, 3].getD low 4 := by
  match low with
  | 0 | 1 | 2 | 3 | 4 | 5 | 6 | 7 | 8 | 9 | 10 | 11 | 12 | 13 | 14 | _ + 15 => rfl

theorem instrLen_rowB (m x : Bool) (b1 b2 b3 : Byte) (low : Nat) :
    instrLen m x (decodeRowB b1 b2 b3 low) =
      [2, 2, 2, 2, 2, 2, 2, 2, 1, 3, 1, 1, 3, 3, 3].getD low 4 := by
  match low with
  | 0 | 1 | 2 | 3 | 4 | 5 | 6 | 7 | 8 | 9 | 10 | 11 | 12 | 13 | 14 | _ + 15 => rfl

theorem instrLen_rowC (m x : Bool) (b1 b2 b3 : Byte) (low : Nat) :
    instrLen m x (decodeRowC m x b1 b2 b3 low) =
      [1 + immByteCount x, 2, 2, 2, 2, 2, 2, 2, 1, 1 + immByteCount m, 1, 1, 3, 3, 3].getD low 4 := by
  match low with
  | 0 | 1 | 2 | 3 | 4 | 5 | 6 | 7 | 8 | 9 | 10 | 11 | 12 | 13 | 14 | _ + 15 => rfl

theorem instrLen_rowD (m x : Bool) (b1 b2 b3 : Byte) (low : Nat) :
    instrLen m x (decodeRowD b1 b2 b3 low) =
      [2, 2, 2, 2, 2, 2, 2, 2, 1, 3, 1, 1, 3, 3, 3].getD low 4 := by
  match low with
  | 0 | 1 | 2 | 3 | 4 | 5 | 6 | 7 | 8 | 9 | 10 | 11 | 12 | 13 | 14 | _ + 15 => rfl

theorem instrLen_rowE (m x : Bool) (b1 b2 b3 : Byte) (low : Nat) :
    instrLen m x (decodeRowE m x b1 b2 b3 low) =
      [1 + immByteCount x, 2, 2, 2, 2, 2, 2, 2, 1, 1 + immByteCount m, 1, 1, 3, 3, 3].getD low 4 := by
  match low with
  | 0 | 1 | 2 | 3 | 4 | 5 | 6 | 7 | 8 | 9 | 10 | 11 | 12 | 13 | 14 | _ + 15 => rfl

theorem instrLen_rowF (m x : Bool) (b1 b2 b3 : Byte) (low : Nat) :
    instrLen m x (decodeRowF b1 b2 b3 low) =
      [2, 2, 2, 2, 3, 2, 2, 2, 1, 3, 1, 1, 3, 3, 3].getD low 4 := by
  match low with
  | 0 | 1 | 2 | 3 | 4 | 5 | 6 | 7 | 8 | 9 | 10 | 11 | 12 | 13 | 14 | _ + 15 => rfl

/-- The opcode and the flags `m` and `x` alone decide a length (R91, R93, R94). -/
theorem opcodeLen_eq (m x : Bool) (op b1 b2 b3 : Byte) : instrLen m x (decodeOpcode m x op b1 b2 b3) = opcodeLen m x op := by
  unfold opcodeLen decodeOpcode
  dsimp only
  split <;> simp only [instrLen_row0, instrLen_row1, instrLen_row2, instrLen_row3, instrLen_row4, instrLen_row5, instrLen_row6,
    instrLen_row7, instrLen_row8, instrLen_row9, instrLen_rowA, instrLen_rowB, instrLen_rowC, instrLen_rowD, instrLen_rowE,
    instrLen_rowF]

/-- A length is one to four bytes (R91). -/
theorem instrLen_bounds (m x : Bool) (i : Instr) : 1 ≤ instrLen m x i ∧ instrLen m x i ≤ 4 := by
  unfold instrLen immByteCount
  split
  · split <;> decide
  · split <;> decide
  · decide
  · decide
  · unfold modeLen; split <;> decide

/-! ### Reading code -/

/-- The byte after byte `k`, seen from `j` bytes on. -/
theorem codeAddr_succ (s : State) (k : Word) (j : Nat) :
    (s.readByte (s.codeAddr k)).after.codeAddr (k + 1 + BitVec.ofNat 16 j) = s.codeAddr (k + BitVec.ofNat 16 (j + 1)) := by
  show s.codeAddr _ = _
  congr 1
  rw [BitVec.add_assoc]; congr 1
  apply BitVec.eq_of_toNat_eq; simp [Nat.add_comm]

/-- The reads of `n` bytes of code from byte `k` on. -/
def State.readsFrom (s : State) (k : Word) (n : Nat) : List Access :=
  readsAt ((List.range n).map fun j => s.codeAddr (k + BitVec.ofNat 16 j))

theorem readsFrom_succ (s : State) (k : Word) (n : Nat) :
    s.readsFrom k (n + 1) = .read (s.codeAddr k) :: (s.readByte (s.codeAddr k)).after.readsFrom (k + 1) n := by
  simp only [State.readsFrom, List.range_succ_eq_map, List.map_cons, List.map_map, readsAt_cons, codeAddr_succ]
  congr 2
  simp

/-- Reading code reads byte after byte (R80). -/
theorem readCode_after (s : State) (k : Word) (n : Nat) : (s.readCode k n).after = s.perform (s.readsFrom k n) := by
  induction n generalizing s k with
  | zero => rfl
  | succ n ih => rw [State.readCode, readsFrom_succ, State.perform, ← ih]

/-- What reading code gives: each byte as it is read after those before it (R80). -/
theorem readCode_value (s : State) (k : Word) (n : Nat) :
    (s.readCode k n).value = (List.range n).map fun j =>
      s.readAfter (s.readsFrom k j) (s.codeAddr (k + BitVec.ofNat 16 j)) := by
  induction n generalizing s k with
  | zero => rfl
  | succ n ih =>
    rw [State.readCode, List.range_succ_eq_map]
    simp only [ih, List.map_cons, List.map_map, Function.comp_def, Nat.succ_eq_add_one, readsFrom_succ, codeAddr_succ]
    congr 1
    simp [State.readsFrom]; rfl

end Sys2Proof.Machine
end

