-- ==== Sys2Proof/Laws/Forms.lean ====
section
/-! SUPPORT. What `exec` answers for each operation in all of its forms at once: the operation's shape over the form's data,
addresses and length. A proof cites these and never takes the opcode table apart. -/

namespace Sys2Proof.Machine

/-! ### Operands -/

/-- A mode that reads a pointer reads it low to high, and then nothing else (`20_memory.md` R80). -/
@[simp] theorem DataMode.find_after (mode : DataMode) (s : State) :
    (mode.find s).after = s.perform (readsAt (mode.pointer s)) := by
  cases mode <;> rfl

/-- The data of `M` bits of an operand, as the word the meanings work on, and the state after its reads. -/
def Operand.load (o : Operand) (s : State) : Reading Word :=
  match o with
  | .imm v => { value := immData s.mWidth v, after := s }
  | .mem mode => (mode.find s).after.readData s.mWidth (mode.find s).value

@[simp] theorem Operand.load_toNat (o : Operand) (s : State) : (o.load s).value.toNat = o.val s := by
  cases o <;> simp [Operand.load, Operand.val, immData, DataMode.ea]

@[simp] theorem Operand.load_after (o : Operand) (s : State) : (o.load s).after = s.perform (o.accesses s) := by
  cases o <;> simp [Operand.load, Operand.accesses, DataMode.ea, State.perform_append]

/-- The reads of an operand's data: their frame. -/
theorem Operand.frame (o : Operand) (s : State) : Frame { accesses := o.accesses s } s (s.perform (o.accesses s)) := by
  cases o with
  | imm v => exact Frame.refl rfl s
  | mem mode => exact perform_reads_frame s _

/-- Data of `M` bits is below `2^M`. -/
theorem Operand.val_lt (o : Operand) (s : State) : o.val s < 2 ^ s.mBits := by
  cases o with
  | imm v => exact Nat.mod_lt _ (by positivity)
  | mem mode =>
    have := dataNat_lt (s.perform (readsAt (mode.pointer s))) s.mWidth (mode.ea s)
    rwa [bits_mWidth] at this

/-- The length of an immediate instruction follows `m` (`30_encoding.md` R93). -/
theorem immLen_mWidth (s : State) : immLen s.mWidth = if s.m then 2 else 3 := by
  cases h : s.m <;> simp [immLen, State.mWidth, widthOf, widthBytes, h]

/-- The length of an immediate instruction follows `x` (`30_encoding.md` R93). -/
theorem immLen_xWidth (s : State) : immLen s.xWidth = if s.x then 2 else 3 := by
  cases h : s.x <;> simp [immLen, State.xWidth, widthOf, widthBytes, h]

/-- An accumulator operation on immediate data, in the words of an operand. -/
theorem immM_eq (f : State → Word → State) (v : Word) (s : State) :
    immM f v s = .next ((f ((Operand.imm v).load s).after ((Operand.imm v).load s).value).advance ((Operand.imm v).len s)) := by
  simp only [immM, immLen_mWidth, Operand.load, Operand.len]

/-! ### The accumulator operations in their fifteen forms -/

theorem exec_adcOf (o : Operand) (s : State) : exec (adcOf o) s = .next (((o.load s).after.adc (o.load s).value).advance (o.len s)) := by
  cases o with
  | imm v => exact immM_eq _ v s
  | mem mode => cases mode <;> rfl

theorem exec_sbcOf (o : Operand) (s : State) : exec (sbcOf o) s = .next (((o.load s).after.sbc (o.load s).value).advance (o.len s)) := by
  cases o with
  | imm v => exact immM_eq _ v s
  | mem mode => cases mode <;> rfl

theorem exec_cmpOf (o : Operand) (s : State) :
    exec (cmpOf o) s = .next (((o.load s).after.cmp (o.load s).value).advance (o.len s)) := by
  cases o with
  | imm v => exact immM_eq _ v s
  | mem mode => cases mode <;> rfl

theorem exec_andOf (o : Operand) (s : State) :
    exec (andOf o) s = .next (((o.load s).after.andData (o.load s).value).advance (o.len s)) := by
  cases o with
  | imm v => exact immM_eq _ v s
  | mem mode => cases mode <;> rfl

theorem exec_eorOf (o : Operand) (s : State) :
    exec (eorOf o) s = .next (((o.load s).after.eorData (o.load s).value).advance (o.len s)) := by
  cases o with
  | imm v => exact immM_eq _ v s
  | mem mode => cases mode <;> rfl

theorem exec_oraOf (o : Operand) (s : State) :
    exec (oraOf o) s = .next (((o.load s).after.oraData (o.load s).value).advance (o.len s)) := by
  cases o with
  | imm v => exact immM_eq _ v s
  | mem mode => cases mode <;> rfl

theorem exec_ldaOf (o : Operand) (s : State) : exec (ldaOf o) s = .next (((o.load s).after.lda (o.load s).value).advance (o.len s)) := by
  cases o with
  | imm v => exact immM_eq _ v s
  | mem mode => cases mode <;> rfl

theorem exec_staOf (mode : DataMode) (s : State) :
    exec (staOf mode) s = .next (((mode.find s).after.writeData s.mWidth (mode.ea s) s.acc).advance mode.len) := by
  cases mode <;> rfl

/-! ### The read-modify-write operations: all data are read, then written (`20_memory.md` R80) -/

theorem stepMem_eq (f : Width → Word → Word) (ea : State → DataAddr) (len : Word) (s : State) :
    stepMem f ea len s =
      let r := f s.mWidth (s.readData s.mWidth (ea s)).value
      .next (((s.perform (readsAt (dataBytes s.mBits (ea s)) ++ dataWrites s.mBits (ea s) r.toNat)).setNZ s.mWidth r).advance
        len) := by
  simp only [stepMem, readData_after, writeData_eq, bits_mWidth, State.perform_append]

theorem shiftMem_eq (f : Width → Word → Word × Bool) (ea : State → DataAddr) (len : Word) (s : State) :
    shiftMem f ea len s =
      let r := f s.mWidth (s.readData s.mWidth (ea s)).value
      .next (((s.perform (readsAt (dataBytes s.mBits (ea s)) ++ dataWrites s.mBits (ea s) r.1.toNat)).shiftFlags s.mWidth
        r).advance len) := by
  simp only [shiftMem, readData_after, writeData_eq, bits_mWidth, State.perform_append]

theorem testAndStore_eq (f : Word → Word → Word) (ea : State → DataAddr) (len : Word) (s : State) :
    testAndStore f ea len s =
      let data := (s.readData s.mWidth (ea s)).value
      .next (((s.perform (readsAt (dataBytes s.mBits (ea s)) ++ dataWrites s.mBits (ea s) (f s.acc data).toNat)).testBits
        data).advance len) := by
  simp only [testAndStore, readData_after, writeData_eq, bits_mWidth, State.perform_append]

/-! ### The read-modify-write operations, STZ and BIT in their four modes -/

theorem exec_aslOf (mode : MemMode) (s : State) : exec (aslOf mode) s = shiftMem aslValue mode.ea mode.len s := by
  cases mode <;> rfl

theorem exec_lsrOf (mode : MemMode) (s : State) : exec (lsrOf mode) s = shiftMem lsrValue mode.ea mode.len s := by
  cases mode <;> rfl

theorem exec_rolOf (mode : MemMode) (s : State) :
    exec (rolOf mode) s = shiftMem (fun w v => rolValue w s.c v) mode.ea mode.len s := by
  cases mode <;> rfl

theorem exec_rorOf (mode : MemMode) (s : State) :
    exec (rorOf mode) s = shiftMem (fun w v => rorValue w s.c v) mode.ea mode.len s := by
  cases mode <;> rfl

theorem exec_decOf (mode : MemMode) (s : State) : exec (decOf mode) s = stepMem decValue mode.ea mode.len s := by
  cases mode <;> rfl

theorem exec_incOf (mode : MemMode) (s : State) : exec (incOf mode) s = stepMem incValue mode.ea mode.len s := by
  cases mode <;> rfl

theorem exec_stzOf (mode : MemMode) (s : State) :
    exec (stzOf mode) s = .next ((s.writeData s.mWidth (mode.ea s) 0).advance mode.len) := by
  cases mode <;> rfl

theorem exec_bitOf (mode : MemMode) (s : State) :
    exec (bitOf mode) s =
      .next (((s.readData s.mWidth (mode.ea s)).after.bitData (s.readData s.mWidth (mode.ea s)).value).advance mode.len) := by
  cases mode <;> rfl

end Sys2Proof.Machine
end

