-- ==== Sys2Proof/Laws/PerInstr.lean ====
section
/-! SUPPORT. Statements for all instructions, made one constructor at a time. -/

namespace Sys2Proof.Laws

/-- The encoder writes as many bytes as the instruction's length says, under every `m` and `x` (`30_encoding.md` R91, R93). -/
def EncodedLength.Statement (i : Instr) : Prop := ∀ m x : Bool, (encode m x i).length = instrLen m x i

theorem EncodedLength.brk : EncodedLength.Statement .brk := fun _ _ => rfl
theorem EncodedLength.oraDirXInd (ll : Byte) : EncodedLength.Statement (.oraDirXInd ll) := fun _ _ => rfl
theorem EncodedLength.cop (sig : Byte) : EncodedLength.Statement (.cop sig) := fun _ _ => rfl
theorem EncodedLength.oraStkS (ll : Byte) : EncodedLength.Statement (.oraStkS ll) := fun _ _ => rfl
theorem EncodedLength.tsbDir (ll : Byte) : EncodedLength.Statement (.tsbDir ll) := fun _ _ => rfl
theorem EncodedLength.oraDir (ll : Byte) : EncodedLength.Statement (.oraDir ll) := fun _ _ => rfl
theorem EncodedLength.aslDir (ll : Byte) : EncodedLength.Statement (.aslDir ll) := fun _ _ => rfl
theorem EncodedLength.oraDirLong (ll : Byte) : EncodedLength.Statement (.oraDirLong ll) := fun _ _ => rfl
theorem EncodedLength.php : EncodedLength.Statement .php := fun _ _ => rfl
theorem EncodedLength.oraImm (imm : Word) : EncodedLength.Statement (.oraImm imm) := fun m x => by
  cases m <;> rfl
theorem EncodedLength.aslAcc : EncodedLength.Statement .aslAcc := fun _ _ => rfl
theorem EncodedLength.phd : EncodedLength.Statement .phd := fun _ _ => rfl
theorem EncodedLength.tsbAbs (hhll : Word) : EncodedLength.Statement (.tsbAbs hhll) := fun _ _ => rfl
theorem EncodedLength.oraAbs (hhll : Word) : EncodedLength.Statement (.oraAbs hhll) := fun _ _ => rfl
theorem EncodedLength.aslAbs (hhll : Word) : EncodedLength.Statement (.aslAbs hhll) := fun _ _ => rfl
theorem EncodedLength.oraLong (hhmmll : Addr) : EncodedLength.Statement (.oraLong hhmmll) := fun _ _ => rfl
theorem EncodedLength.bpl (ll : Byte) : EncodedLength.Statement (.bpl ll) := fun _ _ => rfl
theorem EncodedLength.oraDirIndY (ll : Byte) : EncodedLength.Statement (.oraDirIndY ll) := fun _ _ => rfl
theorem EncodedLength.oraDirInd (ll : Byte) : EncodedLength.Statement (.oraDirInd ll) := fun _ _ => rfl
theorem EncodedLength.oraStkSIndY (ll : Byte) : EncodedLength.Statement (.oraStkSIndY ll) := fun _ _ => rfl
theorem EncodedLength.trbDir (ll : Byte) : EncodedLength.Statement (.trbDir ll) := fun _ _ => rfl
theorem EncodedLength.oraDirX (ll : Byte) : EncodedLength.Statement (.oraDirX ll) := fun _ _ => rfl
theorem EncodedLength.aslDirX (ll : Byte) : EncodedLength.Statement (.aslDirX ll) := fun _ _ => rfl
theorem EncodedLength.oraDirLongY (ll : Byte) : EncodedLength.Statement (.oraDirLongY ll) := fun _ _ => rfl
theorem EncodedLength.clc : EncodedLength.Statement .clc := fun _ _ => rfl
theorem EncodedLength.oraAbsY (hhll : Word) : EncodedLength.Statement (.oraAbsY hhll) := fun _ _ => rfl
theorem EncodedLength.incAcc : EncodedLength.Statement .incAcc := fun _ _ => rfl
theorem EncodedLength.tcs : EncodedLength.Statement .tcs := fun _ _ => rfl
theorem EncodedLength.trbAbs (hhll : Word) : EncodedLength.Statement (.trbAbs hhll) := fun _ _ => rfl
theorem EncodedLength.oraAbsX (hhll : Word) : EncodedLength.Statement (.oraAbsX hhll) := fun _ _ => rfl
theorem EncodedLength.aslAbsX (hhll : Word) : EncodedLength.Statement (.aslAbsX hhll) := fun _ _ => rfl
theorem EncodedLength.oraLongX (hhmmll : Addr) : EncodedLength.Statement (.oraLongX hhmmll) := fun _ _ => rfl
theorem EncodedLength.jsrAbs (hhll : Word) : EncodedLength.Statement (.jsrAbs hhll) := fun _ _ => rfl
theorem EncodedLength.andDirXInd (ll : Byte) : EncodedLength.Statement (.andDirXInd ll) := fun _ _ => rfl
theorem EncodedLength.jsl (hhmmll : Addr) : EncodedLength.Statement (.jsl hhmmll) := fun _ _ => rfl
theorem EncodedLength.andStkS (ll : Byte) : EncodedLength.Statement (.andStkS ll) := fun _ _ => rfl
theorem EncodedLength.bitDir (ll : Byte) : EncodedLength.Statement (.bitDir ll) := fun _ _ => rfl
theorem EncodedLength.andDir (ll : Byte) : EncodedLength.Statement (.andDir ll) := fun _ _ => rfl
theorem EncodedLength.rolDir (ll : Byte) : EncodedLength.Statement (.rolDir ll) := fun _ _ => rfl
theorem EncodedLength.andDirLong (ll : Byte) : EncodedLength.Statement (.andDirLong ll) := fun _ _ => rfl
theorem EncodedLength.plp : EncodedLength.Statement .plp := fun _ _ => rfl
theorem EncodedLength.andImm (imm : Word) : EncodedLength.Statement (.andImm imm) := fun m x => by
  cases m <;> rfl
theorem EncodedLength.rolAcc : EncodedLength.Statement .rolAcc := fun _ _ => rfl
theorem EncodedLength.pld : EncodedLength.Statement .pld := fun _ _ => rfl
theorem EncodedLength.bitAbs (hhll : Word) : EncodedLength.Statement (.bitAbs hhll) := fun _ _ => rfl
theorem EncodedLength.andAbs (hhll : Word) : EncodedLength.Statement (.andAbs hhll) := fun _ _ => rfl
theorem EncodedLength.rolAbs (hhll : Word) : EncodedLength.Statement (.rolAbs hhll) := fun _ _ => rfl
theorem EncodedLength.andLong (hhmmll : Addr) : EncodedLength.Statement (.andLong hhmmll) := fun _ _ => rfl
theorem EncodedLength.bmi (ll : Byte) : EncodedLength.Statement (.bmi ll) := fun _ _ => rfl
theorem EncodedLength.andDirIndY (ll : Byte) : EncodedLength.Statement (.andDirIndY ll) := fun _ _ => rfl
theorem EncodedLength.andDirInd (ll : Byte) : EncodedLength.Statement (.andDirInd ll) := fun _ _ => rfl
theorem EncodedLength.andStkSIndY (ll : Byte) : EncodedLength.Statement (.andStkSIndY ll) := fun _ _ => rfl
theorem EncodedLength.bitDirX (ll : Byte) : EncodedLength.Statement (.bitDirX ll) := fun _ _ => rfl
theorem EncodedLength.andDirX (ll : Byte) : EncodedLength.Statement (.andDirX ll) := fun _ _ => rfl
theorem EncodedLength.rolDirX (ll : Byte) : EncodedLength.Statement (.rolDirX ll) := fun _ _ => rfl
theorem EncodedLength.andDirLongY (ll : Byte) : EncodedLength.Statement (.andDirLongY ll) := fun _ _ => rfl
theorem EncodedLength.sec : EncodedLength.Statement .sec := fun _ _ => rfl
theorem EncodedLength.andAbsY (hhll : Word) : EncodedLength.Statement (.andAbsY hhll) := fun _ _ => rfl
theorem EncodedLength.decAcc : EncodedLength.Statement .decAcc := fun _ _ => rfl
theorem EncodedLength.tsc : EncodedLength.Statement .tsc := fun _ _ => rfl
theorem EncodedLength.bitAbsX (hhll : Word) : EncodedLength.Statement (.bitAbsX hhll) := fun _ _ => rfl
theorem EncodedLength.andAbsX (hhll : Word) : EncodedLength.Statement (.andAbsX hhll) := fun _ _ => rfl
theorem EncodedLength.rolAbsX (hhll : Word) : EncodedLength.Statement (.rolAbsX hhll) := fun _ _ => rfl
theorem EncodedLength.andLongX (hhmmll : Addr) : EncodedLength.Statement (.andLongX hhmmll) := fun _ _ => rfl
theorem EncodedLength.rti : EncodedLength.Statement .rti := fun _ _ => rfl
theorem EncodedLength.eorDirXInd (ll : Byte) : EncodedLength.Statement (.eorDirXInd ll) := fun _ _ => rfl
theorem EncodedLength.wdm (ll : Byte) : EncodedLength.Statement (.wdm ll) := fun _ _ => rfl
theorem EncodedLength.eorStkS (ll : Byte) : EncodedLength.Statement (.eorStkS ll) := fun _ _ => rfl
theorem EncodedLength.mvp (tt : Byte) (ss : Byte) : EncodedLength.Statement (.mvp tt ss) := fun _ _ => rfl
theorem EncodedLength.eorDir (ll : Byte) : EncodedLength.Statement (.eorDir ll) := fun _ _ => rfl
theorem EncodedLength.lsrDir (ll : Byte) : EncodedLength.Statement (.lsrDir ll) := fun _ _ => rfl
theorem EncodedLength.eorDirLong (ll : Byte) : EncodedLength.Statement (.eorDirLong ll) := fun _ _ => rfl
theorem EncodedLength.pha : EncodedLength.Statement .pha := fun _ _ => rfl
theorem EncodedLength.eorImm (imm : Word) : EncodedLength.Statement (.eorImm imm) := fun m x => by
  cases m <;> rfl
theorem EncodedLength.lsrAcc : EncodedLength.Statement .lsrAcc := fun _ _ => rfl
theorem EncodedLength.phk : EncodedLength.Statement .phk := fun _ _ => rfl
theorem EncodedLength.jmpAbs (hhll : Word) : EncodedLength.Statement (.jmpAbs hhll) := fun _ _ => rfl
theorem EncodedLength.eorAbs (hhll : Word) : EncodedLength.Statement (.eorAbs hhll) := fun _ _ => rfl
theorem EncodedLength.lsrAbs (hhll : Word) : EncodedLength.Statement (.lsrAbs hhll) := fun _ _ => rfl
theorem EncodedLength.eorLong (hhmmll : Addr) : EncodedLength.Statement (.eorLong hhmmll) := fun _ _ => rfl
theorem EncodedLength.bvc (ll : Byte) : EncodedLength.Statement (.bvc ll) := fun _ _ => rfl
theorem EncodedLength.eorDirIndY (ll : Byte) : EncodedLength.Statement (.eorDirIndY ll) := fun _ _ => rfl
theorem EncodedLength.eorDirInd (ll : Byte) : EncodedLength.Statement (.eorDirInd ll) := fun _ _ => rfl
theorem EncodedLength.eorStkSIndY (ll : Byte) : EncodedLength.Statement (.eorStkSIndY ll) := fun _ _ => rfl
theorem EncodedLength.mvn (tt : Byte) (ss : Byte) : EncodedLength.Statement (.mvn tt ss) := fun _ _ => rfl
theorem EncodedLength.eorDirX (ll : Byte) : EncodedLength.Statement (.eorDirX ll) := fun _ _ => rfl
theorem EncodedLength.lsrDirX (ll : Byte) : EncodedLength.Statement (.lsrDirX ll) := fun _ _ => rfl
theorem EncodedLength.eorDirLongY (ll : Byte) : EncodedLength.Statement (.eorDirLongY ll) := fun _ _ => rfl
theorem EncodedLength.cli : EncodedLength.Statement .cli := fun _ _ => rfl
theorem EncodedLength.eorAbsY (hhll : Word) : EncodedLength.Statement (.eorAbsY hhll) := fun _ _ => rfl
theorem EncodedLength.phy : EncodedLength.Statement .phy := fun _ _ => rfl
theorem EncodedLength.tcd : EncodedLength.Statement .tcd := fun _ _ => rfl
theorem EncodedLength.jmpLong (hhmmll : Addr) : EncodedLength.Statement (.jmpLong hhmmll) := fun _ _ => rfl
theorem EncodedLength.eorAbsX (hhll : Word) : EncodedLength.Statement (.eorAbsX hhll) := fun _ _ => rfl
theorem EncodedLength.lsrAbsX (hhll : Word) : EncodedLength.Statement (.lsrAbsX hhll) := fun _ _ => rfl
theorem EncodedLength.eorLongX (hhmmll : Addr) : EncodedLength.Statement (.eorLongX hhmmll) := fun _ _ => rfl
theorem EncodedLength.rts : EncodedLength.Statement .rts := fun _ _ => rfl
theorem EncodedLength.adcDirXInd (ll : Byte) : EncodedLength.Statement (.adcDirXInd ll) := fun _ _ => rfl
theorem EncodedLength.per (hhll : Word) : EncodedLength.Statement (.per hhll) := fun _ _ => rfl
theorem EncodedLength.adcStkS (ll : Byte) : EncodedLength.Statement (.adcStkS ll) := fun _ _ => rfl
theorem EncodedLength.stzDir (ll : Byte) : EncodedLength.Statement (.stzDir ll) := fun _ _ => rfl
theorem EncodedLength.adcDir (ll : Byte) : EncodedLength.Statement (.adcDir ll) := fun _ _ => rfl
theorem EncodedLength.rorDir (ll : Byte) : EncodedLength.Statement (.rorDir ll) := fun _ _ => rfl
theorem EncodedLength.adcDirLong (ll : Byte) : EncodedLength.Statement (.adcDirLong ll) := fun _ _ => rfl
theorem EncodedLength.pla : EncodedLength.Statement .pla := fun _ _ => rfl
theorem EncodedLength.adcImm (imm : Word) : EncodedLength.Statement (.adcImm imm) := fun m x => by
  cases m <;> rfl
theorem EncodedLength.rorAcc : EncodedLength.Statement .rorAcc := fun _ _ => rfl
theorem EncodedLength.rtl : EncodedLength.Statement .rtl := fun _ _ => rfl
theorem EncodedLength.jmpAbsInd (hhll : Word) : EncodedLength.Statement (.jmpAbsInd hhll) := fun _ _ => rfl
theorem EncodedLength.adcAbs (hhll : Word) : EncodedLength.Statement (.adcAbs hhll) := fun _ _ => rfl
theorem EncodedLength.rorAbs (hhll : Word) : EncodedLength.Statement (.rorAbs hhll) := fun _ _ => rfl
theorem EncodedLength.adcLong (hhmmll : Addr) : EncodedLength.Statement (.adcLong hhmmll) := fun _ _ => rfl
theorem EncodedLength.bvs (ll : Byte) : EncodedLength.Statement (.bvs ll) := fun _ _ => rfl
theorem EncodedLength.adcDirIndY (ll : Byte) : EncodedLength.Statement (.adcDirIndY ll) := fun _ _ => rfl
theorem EncodedLength.adcDirInd (ll : Byte) : EncodedLength.Statement (.adcDirInd ll) := fun _ _ => rfl
theorem EncodedLength.adcStkSIndY (ll : Byte) : EncodedLength.Statement (.adcStkSIndY ll) := fun _ _ => rfl
theorem EncodedLength.stzDirX (ll : Byte) : EncodedLength.Statement (.stzDirX ll) := fun _ _ => rfl
theorem EncodedLength.adcDirX (ll : Byte) : EncodedLength.Statement (.adcDirX ll) := fun _ _ => rfl
theorem EncodedLength.rorDirX (ll : Byte) : EncodedLength.Statement (.rorDirX ll) := fun _ _ => rfl
theorem EncodedLength.adcDirLongY (ll : Byte) : EncodedLength.Statement (.adcDirLongY ll) := fun _ _ => rfl
theorem EncodedLength.sei : EncodedLength.Statement .sei := fun _ _ => rfl
theorem EncodedLength.adcAbsY (hhll : Word) : EncodedLength.Statement (.adcAbsY hhll) := fun _ _ => rfl
theorem EncodedLength.ply : EncodedLength.Statement .ply := fun _ _ => rfl
theorem EncodedLength.tdc : EncodedLength.Statement .tdc := fun _ _ => rfl
theorem EncodedLength.jmpAbsXInd (hhll : Word) : EncodedLength.Statement (.jmpAbsXInd hhll) := fun _ _ => rfl
theorem EncodedLength.adcAbsX (hhll : Word) : EncodedLength.Statement (.adcAbsX hhll) := fun _ _ => rfl
theorem EncodedLength.rorAbsX (hhll : Word) : EncodedLength.Statement (.rorAbsX hhll) := fun _ _ => rfl
theorem EncodedLength.adcLongX (hhmmll : Addr) : EncodedLength.Statement (.adcLongX hhmmll) := fun _ _ => rfl
theorem EncodedLength.bra (ll : Byte) : EncodedLength.Statement (.bra ll) := fun _ _ => rfl
theorem EncodedLength.staDirXInd (ll : Byte) : EncodedLength.Statement (.staDirXInd ll) := fun _ _ => rfl
theorem EncodedLength.brl (hhll : Word) : EncodedLength.Statement (.brl hhll) := fun _ _ => rfl
theorem EncodedLength.staStkS (ll : Byte) : EncodedLength.Statement (.staStkS ll) := fun _ _ => rfl
theorem EncodedLength.styDir (ll : Byte) : EncodedLength.Statement (.styDir ll) := fun _ _ => rfl
theorem EncodedLength.staDir (ll : Byte) : EncodedLength.Statement (.staDir ll) := fun _ _ => rfl
theorem EncodedLength.stxDir (ll : Byte) : EncodedLength.Statement (.stxDir ll) := fun _ _ => rfl
theorem EncodedLength.staDirLong (ll : Byte) : EncodedLength.Statement (.staDirLong ll) := fun _ _ => rfl
theorem EncodedLength.dey : EncodedLength.Statement .dey := fun _ _ => rfl
theorem EncodedLength.bitImm (imm : Word) : EncodedLength.Statement (.bitImm imm) := fun m x => by
  cases m <;> rfl
theorem EncodedLength.txa : EncodedLength.Statement .txa := fun _ _ => rfl
theorem EncodedLength.phb : EncodedLength.Statement .phb := fun _ _ => rfl
theorem EncodedLength.styAbs (hhll : Word) : EncodedLength.Statement (.styAbs hhll) := fun _ _ => rfl
theorem EncodedLength.staAbs (hhll : Word) : EncodedLength.Statement (.staAbs hhll) := fun _ _ => rfl
theorem EncodedLength.stxAbs (hhll : Word) : EncodedLength.Statement (.stxAbs hhll) := fun _ _ => rfl
theorem EncodedLength.staLong (hhmmll : Addr) : EncodedLength.Statement (.staLong hhmmll) := fun _ _ => rfl
theorem EncodedLength.bcc (ll : Byte) : EncodedLength.Statement (.bcc ll) := fun _ _ => rfl
theorem EncodedLength.staDirIndY (ll : Byte) : EncodedLength.Statement (.staDirIndY ll) := fun _ _ => rfl
theorem EncodedLength.staDirInd (ll : Byte) : EncodedLength.Statement (.staDirInd ll) := fun _ _ => rfl
theorem EncodedLength.staStkSIndY (ll : Byte) : EncodedLength.Statement (.staStkSIndY ll) := fun _ _ => rfl
theorem EncodedLength.styDirX (ll : Byte) : EncodedLength.Statement (.styDirX ll) := fun _ _ => rfl
theorem EncodedLength.staDirX (ll : Byte) : EncodedLength.Statement (.staDirX ll) := fun _ _ => rfl
theorem EncodedLength.stxDirY (ll : Byte) : EncodedLength.Statement (.stxDirY ll) := fun _ _ => rfl
theorem EncodedLength.staDirLongY (ll : Byte) : EncodedLength.Statement (.staDirLongY ll) := fun _ _ => rfl
theorem EncodedLength.tya : EncodedLength.Statement .tya := fun _ _ => rfl
theorem EncodedLength.staAbsY (hhll : Word) : EncodedLength.Statement (.staAbsY hhll) := fun _ _ => rfl
theorem EncodedLength.txs : EncodedLength.Statement .txs := fun _ _ => rfl
theorem EncodedLength.txy : EncodedLength.Statement .txy := fun _ _ => rfl
theorem EncodedLength.stzAbs (hhll : Word) : EncodedLength.Statement (.stzAbs hhll) := fun _ _ => rfl
theorem EncodedLength.staAbsX (hhll : Word) : EncodedLength.Statement (.staAbsX hhll) := fun _ _ => rfl
theorem EncodedLength.stzAbsX (hhll : Word) : EncodedLength.Statement (.stzAbsX hhll) := fun _ _ => rfl
theorem EncodedLength.staLongX (hhmmll : Addr) : EncodedLength.Statement (.staLongX hhmmll) := fun _ _ => rfl
theorem EncodedLength.ldyImm (imm : Word) : EncodedLength.Statement (.ldyImm imm) := fun m x => by
  cases x <;> rfl
theorem EncodedLength.ldaDirXInd (ll : Byte) : EncodedLength.Statement (.ldaDirXInd ll) := fun _ _ => rfl
theorem EncodedLength.ldxImm (imm : Word) : EncodedLength.Statement (.ldxImm imm) := fun m x => by
  cases x <;> rfl
theorem EncodedLength.ldaStkS (ll : Byte) : EncodedLength.Statement (.ldaStkS ll) := fun _ _ => rfl
theorem EncodedLength.ldyDir (ll : Byte) : EncodedLength.Statement (.ldyDir ll) := fun _ _ => rfl
theorem EncodedLength.ldaDir (ll : Byte) : EncodedLength.Statement (.ldaDir ll) := fun _ _ => rfl
theorem EncodedLength.ldxDir (ll : Byte) : EncodedLength.Statement (.ldxDir ll) := fun _ _ => rfl
theorem EncodedLength.ldaDirLong (ll : Byte) : EncodedLength.Statement (.ldaDirLong ll) := fun _ _ => rfl
theorem EncodedLength.tay : EncodedLength.Statement .tay := fun _ _ => rfl
theorem EncodedLength.ldaImm (imm : Word) : EncodedLength.Statement (.ldaImm imm) := fun m x => by
  cases m <;> rfl
theorem EncodedLength.tax : EncodedLength.Statement .tax := fun _ _ => rfl
theorem EncodedLength.plb : EncodedLength.Statement .plb := fun _ _ => rfl
theorem EncodedLength.ldyAbs (hhll : Word) : EncodedLength.Statement (.ldyAbs hhll) := fun _ _ => rfl
theorem EncodedLength.ldaAbs (hhll : Word) : EncodedLength.Statement (.ldaAbs hhll) := fun _ _ => rfl
theorem EncodedLength.ldxAbs (hhll : Word) : EncodedLength.Statement (.ldxAbs hhll) := fun _ _ => rfl
theorem EncodedLength.ldaLong (hhmmll : Addr) : EncodedLength.Statement (.ldaLong hhmmll) := fun _ _ => rfl
theorem EncodedLength.bcs (ll : Byte) : EncodedLength.Statement (.bcs ll) := fun _ _ => rfl
theorem EncodedLength.ldaDirIndY (ll : Byte) : EncodedLength.Statement (.ldaDirIndY ll) := fun _ _ => rfl
theorem EncodedLength.ldaDirInd (ll : Byte) : EncodedLength.Statement (.ldaDirInd ll) := fun _ _ => rfl
theorem EncodedLength.ldaStkSIndY (ll : Byte) : EncodedLength.Statement (.ldaStkSIndY ll) := fun _ _ => rfl
theorem EncodedLength.ldyDirX (ll : Byte) : EncodedLength.Statement (.ldyDirX ll) := fun _ _ => rfl
theorem EncodedLength.ldaDirX (ll : Byte) : EncodedLength.Statement (.ldaDirX ll) := fun _ _ => rfl
theorem EncodedLength.ldxDirY (ll : Byte) : EncodedLength.Statement (.ldxDirY ll) := fun _ _ => rfl
theorem EncodedLength.ldaDirLongY (ll : Byte) : EncodedLength.Statement (.ldaDirLongY ll) := fun _ _ => rfl
theorem EncodedLength.clv : EncodedLength.Statement .clv := fun _ _ => rfl
theorem EncodedLength.ldaAbsY (hhll : Word) : EncodedLength.Statement (.ldaAbsY hhll) := fun _ _ => rfl
theorem EncodedLength.tsx : EncodedLength.Statement .tsx := fun _ _ => rfl
theorem EncodedLength.tyx : EncodedLength.Statement .tyx := fun _ _ => rfl
theorem EncodedLength.ldyAbsX (hhll : Word) : EncodedLength.Statement (.ldyAbsX hhll) := fun _ _ => rfl
theorem EncodedLength.ldaAbsX (hhll : Word) : EncodedLength.Statement (.ldaAbsX hhll) := fun _ _ => rfl
theorem EncodedLength.ldxAbsY (hhll : Word) : EncodedLength.Statement (.ldxAbsY hhll) := fun _ _ => rfl
theorem EncodedLength.ldaLongX (hhmmll : Addr) : EncodedLength.Statement (.ldaLongX hhmmll) := fun _ _ => rfl
theorem EncodedLength.cpyImm (imm : Word) : EncodedLength.Statement (.cpyImm imm) := fun m x => by
  cases x <;> rfl
theorem EncodedLength.cmpDirXInd (ll : Byte) : EncodedLength.Statement (.cmpDirXInd ll) := fun _ _ => rfl
theorem EncodedLength.rep (mask : Byte) : EncodedLength.Statement (.rep mask) := fun _ _ => rfl
theorem EncodedLength.cmpStkS (ll : Byte) : EncodedLength.Statement (.cmpStkS ll) := fun _ _ => rfl
theorem EncodedLength.cpyDir (ll : Byte) : EncodedLength.Statement (.cpyDir ll) := fun _ _ => rfl
theorem EncodedLength.cmpDir (ll : Byte) : EncodedLength.Statement (.cmpDir ll) := fun _ _ => rfl
theorem EncodedLength.decDir (ll : Byte) : EncodedLength.Statement (.decDir ll) := fun _ _ => rfl
theorem EncodedLength.cmpDirLong (ll : Byte) : EncodedLength.Statement (.cmpDirLong ll) := fun _ _ => rfl
theorem EncodedLength.iny : EncodedLength.Statement .iny := fun _ _ => rfl
theorem EncodedLength.cmpImm (imm : Word) : EncodedLength.Statement (.cmpImm imm) := fun m x => by
  cases m <;> rfl
theorem EncodedLength.dex : EncodedLength.Statement .dex := fun _ _ => rfl
theorem EncodedLength.wai : EncodedLength.Statement .wai := fun _ _ => rfl
theorem EncodedLength.cpyAbs (hhll : Word) : EncodedLength.Statement (.cpyAbs hhll) := fun _ _ => rfl
theorem EncodedLength.cmpAbs (hhll : Word) : EncodedLength.Statement (.cmpAbs hhll) := fun _ _ => rfl
theorem EncodedLength.decAbs (hhll : Word) : EncodedLength.Statement (.decAbs hhll) := fun _ _ => rfl
theorem EncodedLength.cmpLong (hhmmll : Addr) : EncodedLength.Statement (.cmpLong hhmmll) := fun _ _ => rfl
theorem EncodedLength.bne (ll : Byte) : EncodedLength.Statement (.bne ll) := fun _ _ => rfl
theorem EncodedLength.cmpDirIndY (ll : Byte) : EncodedLength.Statement (.cmpDirIndY ll) := fun _ _ => rfl
theorem EncodedLength.cmpDirInd (ll : Byte) : EncodedLength.Statement (.cmpDirInd ll) := fun _ _ => rfl
theorem EncodedLength.cmpStkSIndY (ll : Byte) : EncodedLength.Statement (.cmpStkSIndY ll) := fun _ _ => rfl
theorem EncodedLength.pei (ll : Byte) : EncodedLength.Statement (.pei ll) := fun _ _ => rfl
theorem EncodedLength.cmpDirX (ll : Byte) : EncodedLength.Statement (.cmpDirX ll) := fun _ _ => rfl
theorem EncodedLength.decDirX (ll : Byte) : EncodedLength.Statement (.decDirX ll) := fun _ _ => rfl
theorem EncodedLength.cmpDirLongY (ll : Byte) : EncodedLength.Statement (.cmpDirLongY ll) := fun _ _ => rfl
theorem EncodedLength.cld : EncodedLength.Statement .cld := fun _ _ => rfl
theorem EncodedLength.cmpAbsY (hhll : Word) : EncodedLength.Statement (.cmpAbsY hhll) := fun _ _ => rfl
theorem EncodedLength.phx : EncodedLength.Statement .phx := fun _ _ => rfl
theorem EncodedLength.stp : EncodedLength.Statement .stp := fun _ _ => rfl
theorem EncodedLength.jmpAbsLong (hhll : Word) : EncodedLength.Statement (.jmpAbsLong hhll) := fun _ _ => rfl
theorem EncodedLength.cmpAbsX (hhll : Word) : EncodedLength.Statement (.cmpAbsX hhll) := fun _ _ => rfl
theorem EncodedLength.decAbsX (hhll : Word) : EncodedLength.Statement (.decAbsX hhll) := fun _ _ => rfl
theorem EncodedLength.cmpLongX (hhmmll : Addr) : EncodedLength.Statement (.cmpLongX hhmmll) := fun _ _ => rfl
theorem EncodedLength.cpxImm (imm : Word) : EncodedLength.Statement (.cpxImm imm) := fun m x => by
  cases x <;> rfl
theorem EncodedLength.sbcDirXInd (ll : Byte) : EncodedLength.Statement (.sbcDirXInd ll) := fun _ _ => rfl
theorem EncodedLength.sep (mask : Byte) : EncodedLength.Statement (.sep mask) := fun _ _ => rfl
theorem EncodedLength.sbcStkS (ll : Byte) : EncodedLength.Statement (.sbcStkS ll) := fun _ _ => rfl
theorem EncodedLength.cpxDir (ll : Byte) : EncodedLength.Statement (.cpxDir ll) := fun _ _ => rfl
theorem EncodedLength.sbcDir (ll : Byte) : EncodedLength.Statement (.sbcDir ll) := fun _ _ => rfl
theorem EncodedLength.incDir (ll : Byte) : EncodedLength.Statement (.incDir ll) := fun _ _ => rfl
theorem EncodedLength.sbcDirLong (ll : Byte) : EncodedLength.Statement (.sbcDirLong ll) := fun _ _ => rfl
theorem EncodedLength.inx : EncodedLength.Statement .inx := fun _ _ => rfl
theorem EncodedLength.sbcImm (imm : Word) : EncodedLength.Statement (.sbcImm imm) := fun m x => by
  cases m <;> rfl
theorem EncodedLength.nop : EncodedLength.Statement .nop := fun _ _ => rfl
theorem EncodedLength.xba : EncodedLength.Statement .xba := fun _ _ => rfl
theorem EncodedLength.cpxAbs (hhll : Word) : EncodedLength.Statement (.cpxAbs hhll) := fun _ _ => rfl
theorem EncodedLength.sbcAbs (hhll : Word) : EncodedLength.Statement (.sbcAbs hhll) := fun _ _ => rfl
theorem EncodedLength.incAbs (hhll : Word) : EncodedLength.Statement (.incAbs hhll) := fun _ _ => rfl
theorem EncodedLength.sbcLong (hhmmll : Addr) : EncodedLength.Statement (.sbcLong hhmmll) := fun _ _ => rfl
theorem EncodedLength.beq (ll : Byte) : EncodedLength.Statement (.beq ll) := fun _ _ => rfl
theorem EncodedLength.sbcDirIndY (ll : Byte) : EncodedLength.Statement (.sbcDirIndY ll) := fun _ _ => rfl
theorem EncodedLength.sbcDirInd (ll : Byte) : EncodedLength.Statement (.sbcDirInd ll) := fun _ _ => rfl
theorem EncodedLength.sbcStkSIndY (ll : Byte) : EncodedLength.Statement (.sbcStkSIndY ll) := fun _ _ => rfl
theorem EncodedLength.pea (hhll : Word) : EncodedLength.Statement (.pea hhll) := fun _ _ => rfl
theorem EncodedLength.sbcDirX (ll : Byte) : EncodedLength.Statement (.sbcDirX ll) := fun _ _ => rfl
theorem EncodedLength.incDirX (ll : Byte) : EncodedLength.Statement (.incDirX ll) := fun _ _ => rfl
theorem EncodedLength.sbcDirLongY (ll : Byte) : EncodedLength.Statement (.sbcDirLongY ll) := fun _ _ => rfl
theorem EncodedLength.sed : EncodedLength.Statement .sed := fun _ _ => rfl
theorem EncodedLength.sbcAbsY (hhll : Word) : EncodedLength.Statement (.sbcAbsY hhll) := fun _ _ => rfl
theorem EncodedLength.plx : EncodedLength.Statement .plx := fun _ _ => rfl
theorem EncodedLength.xce : EncodedLength.Statement .xce := fun _ _ => rfl
theorem EncodedLength.jsrAbsXInd (hhll : Word) : EncodedLength.Statement (.jsrAbsXInd hhll) := fun _ _ => rfl
theorem EncodedLength.sbcAbsX (hhll : Word) : EncodedLength.Statement (.sbcAbsX hhll) := fun _ _ => rfl
theorem EncodedLength.incAbsX (hhll : Word) : EncodedLength.Statement (.incAbsX hhll) := fun _ _ => rfl
theorem EncodedLength.sbcLongX (hhmmll : Addr) : EncodedLength.Statement (.sbcLongX hhmmll) := fun _ _ => rfl

end Sys2Proof.Laws
end

