-- ==== Sys2Proof/Machine/Cycles.lean ====
section
/-! DEFINITION. The number of cycles of an instruction, as the CYCLES column gives it (`70_reset_and_hazards.md` R475,
`44_branches.md` R252): a report, which no step reads (R478, log 20). Subtractions come last, so that none is cut off at 0. -/

namespace Sys2Proof.Machine

/-- A flag as a number. -/
def flagNat (b : Bool) : Nat := if b then 1 else 0

/-- `w`: 0 when `DL` is `$00` (R475). -/
def State.cycleW (s : State) : Nat := flagNat (decide (s.DL ≠ 0x00#8))

/-- `p` of an indexed mode: adding the index changes bits 15 to 8 of the unindexed address (R475, log 20). -/
def pageCrossed (base idx : Word) : Nat := flagNat (decide (hi8 (base + idx) ≠ hi8 base))

/-- The address `(dir),Y` indexes: its pointer (R138). -/
def State.indYBase (s : State) (ll : Byte) : Word := (s.read16 (s.directPair .old ll 0)).value

/-- `2+t+t*e*p` (R252, R475). -/
def State.branchCycles (s : State) (taken : Bool) (ll : Byte) : Nat :=
  2 + flagNat taken
    + flagNat taken * flagNat s.e * flagNat (decide (hi8 (s.rel8Target ll) ≠ hi8 (s.PC + 2)))

/-- The cycles an instruction takes in a state (R475). -/
def cycles (i : Instr) (s : State) : Nat :=
  match i with
  | .brk => 8 - flagNat s.e
  | .oraDirXInd _ => 7 + s.cycleW - flagNat s.m
  | .cop _ => 8 - flagNat s.e
  | .oraStkS _ => 5 - flagNat s.m
  | .tsbDir _ => 7 + s.cycleW - 2 * flagNat s.m
  | .oraDir _ => 4 + s.cycleW - flagNat s.m
  | .aslDir _ => 7 + s.cycleW - 2 * flagNat s.m
  | .oraDirLong _ => 7 + s.cycleW - flagNat s.m
  | .php => 3
  | .oraImm _ => 3 - flagNat s.m
  | .aslAcc => 2
  | .phd => 4
  | .tsbAbs _ => 8 - 2 * flagNat s.m
  | .oraAbs _ => 5 - flagNat s.m
  | .aslAbs _ => 8 - 2 * flagNat s.m
  | .oraLong _ => 6 - flagNat s.m
  | .bpl ll => s.branchCycles (!s.n) ll
  | .oraDirIndY ll => 7 + s.cycleW + flagNat s.x * (pageCrossed (s.indYBase ll) s.Y) - flagNat s.m - flagNat s.x
  | .oraDirInd _ => 6 + s.cycleW - flagNat s.m
  | .oraStkSIndY _ => 8 - flagNat s.m
  | .trbDir _ => 7 + s.cycleW - 2 * flagNat s.m
  | .oraDirX _ => 5 + s.cycleW - flagNat s.m
  | .aslDirX _ => 8 + s.cycleW - 2 * flagNat s.m
  | .oraDirLongY _ => 7 + s.cycleW - flagNat s.m
  | .clc => 2
  | .oraAbsY hhll => 6 + flagNat s.x * (pageCrossed hhll s.Y) - flagNat s.m - flagNat s.x
  | .incAcc => 2
  | .tcs => 2
  | .trbAbs _ => 8 - 2 * flagNat s.m
  | .oraAbsX hhll => 6 + flagNat s.x * (pageCrossed hhll s.X) - flagNat s.m - flagNat s.x
  | .aslAbsX _ => 9 - 2 * flagNat s.m
  | .oraLongX _ => 6 - flagNat s.m
  | .jsrAbs _ => 6
  | .andDirXInd _ => 7 + s.cycleW - flagNat s.m
  | .jsl _ => 8
  | .andStkS _ => 5 - flagNat s.m
  | .bitDir _ => 4 + s.cycleW - flagNat s.m
  | .andDir _ => 4 + s.cycleW - flagNat s.m
  | .rolDir _ => 7 + s.cycleW - 2 * flagNat s.m
  | .andDirLong _ => 7 + s.cycleW - flagNat s.m
  | .plp => 4
  | .andImm _ => 3 - flagNat s.m
  | .rolAcc => 2
  | .pld => 5
  | .bitAbs _ => 5 - flagNat s.m
  | .andAbs _ => 5 - flagNat s.m
  | .rolAbs _ => 8 - 2 * flagNat s.m
  | .andLong _ => 6 - flagNat s.m
  | .bmi ll => s.branchCycles s.n ll
  | .andDirIndY ll => 7 + s.cycleW + flagNat s.x * (pageCrossed (s.indYBase ll) s.Y) - flagNat s.m - flagNat s.x
  | .andDirInd _ => 6 + s.cycleW - flagNat s.m
  | .andStkSIndY _ => 8 - flagNat s.m
  | .bitDirX _ => 5 + s.cycleW - flagNat s.m
  | .andDirX _ => 5 + s.cycleW - flagNat s.m
  | .rolDirX _ => 8 + s.cycleW - 2 * flagNat s.m
  | .andDirLongY _ => 7 + s.cycleW - flagNat s.m
  | .sec => 2
  | .andAbsY hhll => 6 + flagNat s.x * (pageCrossed hhll s.Y) - flagNat s.m - flagNat s.x
  | .decAcc => 2
  | .tsc => 2
  | .bitAbsX hhll => 6 + flagNat s.x * (pageCrossed hhll s.X) - flagNat s.m - flagNat s.x
  | .andAbsX hhll => 6 + flagNat s.x * (pageCrossed hhll s.X) - flagNat s.m - flagNat s.x
  | .rolAbsX _ => 9 - 2 * flagNat s.m
  | .andLongX _ => 6 - flagNat s.m
  | .rti => 7 - flagNat s.e
  | .eorDirXInd _ => 7 + s.cycleW - flagNat s.m
  | .wdm _ => 2
  | .eorStkS _ => 5 - flagNat s.m
  | .mvp _ _ => 7
  | .eorDir _ => 4 + s.cycleW - flagNat s.m
  | .lsrDir _ => 7 + s.cycleW - 2 * flagNat s.m
  | .eorDirLong _ => 7 + s.cycleW - flagNat s.m
  | .pha => 4 - flagNat s.m
  | .eorImm _ => 3 - flagNat s.m
  | .lsrAcc => 2
  | .phk => 3
  | .jmpAbs _ => 3
  | .eorAbs _ => 5 - flagNat s.m
  | .lsrAbs _ => 8 - 2 * flagNat s.m
  | .eorLong _ => 6 - flagNat s.m
  | .bvc ll => s.branchCycles (!s.v) ll
  | .eorDirIndY ll => 7 + s.cycleW + flagNat s.x * (pageCrossed (s.indYBase ll) s.Y) - flagNat s.m - flagNat s.x
  | .eorDirInd _ => 6 + s.cycleW - flagNat s.m
  | .eorStkSIndY _ => 8 - flagNat s.m
  | .mvn _ _ => 7
  | .eorDirX _ => 5 + s.cycleW - flagNat s.m
  | .lsrDirX _ => 8 + s.cycleW - 2 * flagNat s.m
  | .eorDirLongY _ => 7 + s.cycleW - flagNat s.m
  | .cli => 2
  | .eorAbsY hhll => 6 + flagNat s.x * (pageCrossed hhll s.Y) - flagNat s.m - flagNat s.x
  | .phy => 4 - flagNat s.x
  | .tcd => 2
  | .jmpLong _ => 4
  | .eorAbsX hhll => 6 + flagNat s.x * (pageCrossed hhll s.X) - flagNat s.m - flagNat s.x
  | .lsrAbsX _ => 9 - 2 * flagNat s.m
  | .eorLongX _ => 6 - flagNat s.m
  | .rts => 6
  | .adcDirXInd _ => 7 + s.cycleW - flagNat s.m
  | .per _ => 6
  | .adcStkS _ => 5 - flagNat s.m
  | .stzDir _ => 4 + s.cycleW - flagNat s.m
  | .adcDir _ => 4 + s.cycleW - flagNat s.m
  | .rorDir _ => 7 + s.cycleW - 2 * flagNat s.m
  | .adcDirLong _ => 7 + s.cycleW - flagNat s.m
  | .pla => 5 - flagNat s.m
  | .adcImm _ => 3 - flagNat s.m
  | .rorAcc => 2
  | .rtl => 6
  | .jmpAbsInd _ => 5
  | .adcAbs _ => 5 - flagNat s.m
  | .rorAbs _ => 8 - 2 * flagNat s.m
  | .adcLong _ => 6 - flagNat s.m
  | .bvs ll => s.branchCycles s.v ll
  | .adcDirIndY ll => 7 + s.cycleW + flagNat s.x * (pageCrossed (s.indYBase ll) s.Y) - flagNat s.m - flagNat s.x
  | .adcDirInd _ => 6 + s.cycleW - flagNat s.m
  | .adcStkSIndY _ => 8 - flagNat s.m
  | .stzDirX _ => 5 + s.cycleW - flagNat s.m
  | .adcDirX _ => 5 + s.cycleW - flagNat s.m
  | .rorDirX _ => 8 + s.cycleW - 2 * flagNat s.m
  | .adcDirLongY _ => 7 + s.cycleW - flagNat s.m
  | .sei => 2
  | .adcAbsY hhll => 6 + flagNat s.x * (pageCrossed hhll s.Y) - flagNat s.m - flagNat s.x
  | .ply => 5 - flagNat s.x
  | .tdc => 2
  | .jmpAbsXInd _ => 6
  | .adcAbsX hhll => 6 + flagNat s.x * (pageCrossed hhll s.X) - flagNat s.m - flagNat s.x
  | .rorAbsX _ => 9 - 2 * flagNat s.m
  | .adcLongX _ => 6 - flagNat s.m
  | .bra ll => s.branchCycles true ll
  | .staDirXInd _ => 7 + s.cycleW - flagNat s.m
  | .brl _ => 4
  | .staStkS _ => 5 - flagNat s.m
  | .styDir _ => 4 + s.cycleW - flagNat s.x
  | .staDir _ => 4 + s.cycleW - flagNat s.m
  | .stxDir _ => 4 + s.cycleW - flagNat s.x
  | .staDirLong _ => 7 + s.cycleW - flagNat s.m
  | .dey => 2
  | .bitImm _ => 3 - flagNat s.m
  | .txa => 2
  | .phb => 3
  | .styAbs _ => 5 - flagNat s.x
  | .staAbs _ => 5 - flagNat s.m
  | .stxAbs _ => 5 - flagNat s.x
  | .staLong _ => 6 - flagNat s.m
  | .bcc ll => s.branchCycles (!s.c) ll
  | .staDirIndY _ => 7 + s.cycleW - flagNat s.m
  | .staDirInd _ => 6 + s.cycleW - flagNat s.m
  | .staStkSIndY _ => 8 - flagNat s.m
  | .styDirX _ => 5 + s.cycleW - flagNat s.x
  | .staDirX _ => 5 + s.cycleW - flagNat s.m
  | .stxDirY _ => 5 + s.cycleW - flagNat s.x
  | .staDirLongY _ => 7 + s.cycleW - flagNat s.m
  | .tya => 2
  | .staAbsY _ => 6 - flagNat s.m
  | .txs => 2
  | .txy => 2
  | .stzAbs _ => 5 - flagNat s.m
  | .staAbsX _ => 6 - flagNat s.m
  | .stzAbsX _ => 6 - flagNat s.m
  | .staLongX _ => 6 - flagNat s.m
  | .ldyImm _ => 3 - flagNat s.x
  | .ldaDirXInd _ => 7 + s.cycleW - flagNat s.m
  | .ldxImm _ => 3 - flagNat s.x
  | .ldaStkS _ => 5 - flagNat s.m
  | .ldyDir _ => 4 + s.cycleW - flagNat s.x
  | .ldaDir _ => 4 + s.cycleW - flagNat s.m
  | .ldxDir _ => 4 + s.cycleW - flagNat s.x
  | .ldaDirLong _ => 7 + s.cycleW - flagNat s.m
  | .tay => 2
  | .ldaImm _ => 3 - flagNat s.m
  | .tax => 2
  | .plb => 4
  | .ldyAbs _ => 5 - flagNat s.x
  | .ldaAbs _ => 5 - flagNat s.m
  | .ldxAbs _ => 5 - flagNat s.x
  | .ldaLong _ => 6 - flagNat s.m
  | .bcs ll => s.branchCycles s.c ll
  | .ldaDirIndY ll => 7 + s.cycleW + flagNat s.x * (pageCrossed (s.indYBase ll) s.Y) - flagNat s.m - flagNat s.x
  | .ldaDirInd _ => 6 + s.cycleW - flagNat s.m
  | .ldaStkSIndY _ => 8 - flagNat s.m
  | .ldyDirX _ => 5 + s.cycleW - flagNat s.x
  | .ldaDirX _ => 5 + s.cycleW - flagNat s.m
  | .ldxDirY _ => 5 + s.cycleW - flagNat s.x
  | .ldaDirLongY _ => 7 + s.cycleW - flagNat s.m
  | .clv => 2
  | .ldaAbsY hhll => 6 + flagNat s.x * (pageCrossed hhll s.Y) - flagNat s.m - flagNat s.x
  | .tsx => 2
  | .tyx => 2
  | .ldyAbsX hhll => 6 + flagNat s.x * (pageCrossed hhll s.X) - 2 * flagNat s.x
  | .ldaAbsX hhll => 6 + flagNat s.x * (pageCrossed hhll s.X) - flagNat s.m - flagNat s.x
  | .ldxAbsY hhll => 6 + flagNat s.x * (pageCrossed hhll s.Y) - 2 * flagNat s.x
  | .ldaLongX _ => 6 - flagNat s.m
  | .cpyImm _ => 3 - flagNat s.x
  | .cmpDirXInd _ => 7 + s.cycleW - flagNat s.m
  | .rep _ => 3
  | .cmpStkS _ => 5 - flagNat s.m
  | .cpyDir _ => 4 + s.cycleW - flagNat s.x
  | .cmpDir _ => 4 + s.cycleW - flagNat s.m
  | .decDir _ => 7 + s.cycleW - 2 * flagNat s.m
  | .cmpDirLong _ => 7 + s.cycleW - flagNat s.m
  | .iny => 2
  | .cmpImm _ => 3 - flagNat s.m
  | .dex => 2
  | .wai => 3
  | .cpyAbs _ => 5 - flagNat s.x
  | .cmpAbs _ => 5 - flagNat s.m
  | .decAbs _ => 8 - 2 * flagNat s.m
  | .cmpLong _ => 6 - flagNat s.m
  | .bne ll => s.branchCycles (!s.z) ll
  | .cmpDirIndY ll => 7 + s.cycleW + flagNat s.x * (pageCrossed (s.indYBase ll) s.Y) - flagNat s.m - flagNat s.x
  | .cmpDirInd _ => 6 + s.cycleW - flagNat s.m
  | .cmpStkSIndY _ => 8 - flagNat s.m
  | .pei _ => 6 + s.cycleW
  | .cmpDirX _ => 5 + s.cycleW - flagNat s.m
  | .decDirX _ => 8 + s.cycleW - 2 * flagNat s.m
  | .cmpDirLongY _ => 7 + s.cycleW - flagNat s.m
  | .cld => 2
  | .cmpAbsY hhll => 6 + flagNat s.x * (pageCrossed hhll s.Y) - flagNat s.m - flagNat s.x
  | .phx => 4 - flagNat s.x
  | .stp => 3
  | .jmpAbsLong _ => 6
  | .cmpAbsX hhll => 6 + flagNat s.x * (pageCrossed hhll s.X) - flagNat s.m - flagNat s.x
  | .decAbsX _ => 9 - 2 * flagNat s.m
  | .cmpLongX _ => 6 - flagNat s.m
  | .cpxImm _ => 3 - flagNat s.x
  | .sbcDirXInd _ => 7 + s.cycleW - flagNat s.m
  | .sep _ => 3
  | .sbcStkS _ => 5 - flagNat s.m
  | .cpxDir _ => 4 + s.cycleW - flagNat s.x
  | .sbcDir _ => 4 + s.cycleW - flagNat s.m
  | .incDir _ => 7 + s.cycleW - 2 * flagNat s.m
  | .sbcDirLong _ => 7 + s.cycleW - flagNat s.m
  | .inx => 2
  | .sbcImm _ => 3 - flagNat s.m
  | .nop => 2
  | .xba => 3
  | .cpxAbs _ => 5 - flagNat s.x
  | .sbcAbs _ => 5 - flagNat s.m
  | .incAbs _ => 8 - 2 * flagNat s.m
  | .sbcLong _ => 6 - flagNat s.m
  | .beq ll => s.branchCycles s.z ll
  | .sbcDirIndY ll => 7 + s.cycleW + flagNat s.x * (pageCrossed (s.indYBase ll) s.Y) - flagNat s.m - flagNat s.x
  | .sbcDirInd _ => 6 + s.cycleW - flagNat s.m
  | .sbcStkSIndY _ => 8 - flagNat s.m
  | .pea _ => 5
  | .sbcDirX _ => 5 + s.cycleW - flagNat s.m
  | .incDirX _ => 8 + s.cycleW - 2 * flagNat s.m
  | .sbcDirLongY _ => 7 + s.cycleW - flagNat s.m
  | .sed => 2
  | .sbcAbsY hhll => 6 + flagNat s.x * (pageCrossed hhll s.Y) - flagNat s.m - flagNat s.x
  | .plx => 5 - flagNat s.x
  | .xce => 2
  | .jsrAbsXInd _ => 8
  | .sbcAbsX hhll => 6 + flagNat s.x * (pageCrossed hhll s.X) - flagNat s.m - flagNat s.x
  | .incAbsX _ => 9 - 2 * flagNat s.m
  | .sbcLongX _ => 6 - flagNat s.m

end Sys2Proof.Machine
end

