-- ==== Sys2Proof/Tests/Slice0.lean ====
section
/-! SUPPORT. Tests: an ill-formed term for each check of `WellFormed.lean`, a word written out from the opcode table for every
constructor, results that the spec itself states, and a witness for the hypotheses of each statement. Every expected value
is the spec's: the rule or vector it comes from stands over it. -/

open Sys2Proof Sys2Proof.Machine

namespace Sys2Proof.Tests

/-! ### Helpers -/

/-- Memory from a list of bytes. -/
def cells (l : List (Nat × Nat)) : Memory := l.foldl (fun mem p => Memory.write mem p.1 (BitVec.ofNat 8 p.2)) []

/-- A running machine with stack at `$01FF` and nothing pending. -/
def start (e : Bool) (p k : Byte) (pc : Word) (l : List (Nat × Nat)) : State :=
  { State.reset with e := e, P := p, S := 0x01FF#16, K := k, PC := pc, mem := cells l }

/-- Something read from the next state. -/
def view {α : Type} (f : State → α) : Result → Option α
  | .next t => some (f t)
  | .fault _ => none
  | .refused _ => none

/-- A word decodes to an instruction with no byte over, under `m = x = 0`. -/
def decodesTo (p : List Byte × Instr) : Bool :=
  match decode false false p.1 with
  | .ok (i, []) => decide (i = p.2)
  | .ok _ => false
  | .error _ => false

/-- Every word of a list decodes to the instruction beside it. -/
def allDecode (l : List (List Byte × Instr)) : Bool := l.all decodesTo

/-! ### Well-formedness (`30_encoding.md` R93) -/

theorem test_wf_refuses_wide_accumulator_immediate : (Instr.ldaImm 0x0100#16).wf true false = false := by decide
theorem test_wf_refuses_wide_index_immediate : (Instr.ldxImm 0x0100#16).wf false true = false := by decide
theorem test_wf_accepts_wide_immediates :
    (Instr.ldaImm 0x0100#16).wf false true = true ∧ (Instr.ldxImm 0x0100#16).wf true false = true := by decide
theorem test_wf_accepts_widest_narrow_immediates :
    (Instr.ldaImm 0x00FF#16).wf true true = true ∧ (Instr.cpyImm 0x00FF#16).wf true true = true := by decide

/-! ### Decoding: one word for every opcode, operand bytes `$34`, `$34 $12` or `$56 $34 $12` (R92, R96, R97) -/

/-- Opcodes `$00` to `$0F`. -/
theorem test_decode_row_0 : allDecode [
    ([0x00#8], .brk),
    ([0x01#8, 0x34#8], .oraDirXInd 0x34#8),
    ([0x02#8, 0x34#8], .cop 0x34#8),
    ([0x03#8, 0x34#8], .oraStkS 0x34#8),
    ([0x04#8, 0x34#8], .tsbDir 0x34#8),
    ([0x05#8, 0x34#8], .oraDir 0x34#8),
    ([0x06#8, 0x34#8], .aslDir 0x34#8),
    ([0x07#8, 0x34#8], .oraDirLong 0x34#8),
    ([0x08#8], .php),
    ([0x09#8, 0x34#8, 0x12#8], .oraImm 0x1234#16),
    ([0x0A#8], .aslAcc),
    ([0x0B#8], .phd),
    ([0x0C#8, 0x34#8, 0x12#8], .tsbAbs 0x1234#16),
    ([0x0D#8, 0x34#8, 0x12#8], .oraAbs 0x1234#16),
    ([0x0E#8, 0x34#8, 0x12#8], .aslAbs 0x1234#16),
    ([0x0F#8, 0x56#8, 0x34#8, 0x12#8], .oraLong 0x123456#24)] = true := by decide

/-- Opcodes `$10` to `$1F`. -/
theorem test_decode_row_1 : allDecode [
    ([0x10#8, 0x34#8], .bpl 0x34#8),
    ([0x11#8, 0x34#8], .oraDirIndY 0x34#8),
    ([0x12#8, 0x34#8], .oraDirInd 0x34#8),
    ([0x13#8, 0x34#8], .oraStkSIndY 0x34#8),
    ([0x14#8, 0x34#8], .trbDir 0x34#8),
    ([0x15#8, 0x34#8], .oraDirX 0x34#8),
    ([0x16#8, 0x34#8], .aslDirX 0x34#8),
    ([0x17#8, 0x34#8], .oraDirLongY 0x34#8),
    ([0x18#8], .clc),
    ([0x19#8, 0x34#8, 0x12#8], .oraAbsY 0x1234#16),
    ([0x1A#8], .incAcc),
    ([0x1B#8], .tcs),
    ([0x1C#8, 0x34#8, 0x12#8], .trbAbs 0x1234#16),
    ([0x1D#8, 0x34#8, 0x12#8], .oraAbsX 0x1234#16),
    ([0x1E#8, 0x34#8, 0x12#8], .aslAbsX 0x1234#16),
    ([0x1F#8, 0x56#8, 0x34#8, 0x12#8], .oraLongX 0x123456#24)] = true := by decide

/-- Opcodes `$20` to `$2F`. -/
theorem test_decode_row_2 : allDecode [
    ([0x20#8, 0x34#8, 0x12#8], .jsrAbs 0x1234#16),
    ([0x21#8, 0x34#8], .andDirXInd 0x34#8),
    ([0x22#8, 0x56#8, 0x34#8, 0x12#8], .jsl 0x123456#24),
    ([0x23#8, 0x34#8], .andStkS 0x34#8),
    ([0x24#8, 0x34#8], .bitDir 0x34#8),
    ([0x25#8, 0x34#8], .andDir 0x34#8),
    ([0x26#8, 0x34#8], .rolDir 0x34#8),
    ([0x27#8, 0x34#8], .andDirLong 0x34#8),
    ([0x28#8], .plp),
    ([0x29#8, 0x34#8, 0x12#8], .andImm 0x1234#16),
    ([0x2A#8], .rolAcc),
    ([0x2B#8], .pld),
    ([0x2C#8, 0x34#8, 0x12#8], .bitAbs 0x1234#16),
    ([0x2D#8, 0x34#8, 0x12#8], .andAbs 0x1234#16),
    ([0x2E#8, 0x34#8, 0x12#8], .rolAbs 0x1234#16),
    ([0x2F#8, 0x56#8, 0x34#8, 0x12#8], .andLong 0x123456#24)] = true := by decide

/-- Opcodes `$30` to `$3F`. -/
theorem test_decode_row_3 : allDecode [
    ([0x30#8, 0x34#8], .bmi 0x34#8),
    ([0x31#8, 0x34#8], .andDirIndY 0x34#8),
    ([0x32#8, 0x34#8], .andDirInd 0x34#8),
    ([0x33#8, 0x34#8], .andStkSIndY 0x34#8),
    ([0x34#8, 0x34#8], .bitDirX 0x34#8),
    ([0x35#8, 0x34#8], .andDirX 0x34#8),
    ([0x36#8, 0x34#8], .rolDirX 0x34#8),
    ([0x37#8, 0x34#8], .andDirLongY 0x34#8),
    ([0x38#8], .sec),
    ([0x39#8, 0x34#8, 0x12#8], .andAbsY 0x1234#16),
    ([0x3A#8], .decAcc),
    ([0x3B#8], .tsc),
    ([0x3C#8, 0x34#8, 0x12#8], .bitAbsX 0x1234#16),
    ([0x3D#8, 0x34#8, 0x12#8], .andAbsX 0x1234#16),
    ([0x3E#8, 0x34#8, 0x12#8], .rolAbsX 0x1234#16),
    ([0x3F#8, 0x56#8, 0x34#8, 0x12#8], .andLongX 0x123456#24)] = true := by decide

/-- Opcodes `$40` to `$4F`. -/
theorem test_decode_row_4 : allDecode [
    ([0x40#8], .rti),
    ([0x41#8, 0x34#8], .eorDirXInd 0x34#8),
    ([0x42#8, 0x34#8], .wdm 0x34#8),
    ([0x43#8, 0x34#8], .eorStkS 0x34#8),
    ([0x44#8, 0x34#8, 0x12#8], .mvp 0x34#8 0x12#8),
    ([0x45#8, 0x34#8], .eorDir 0x34#8),
    ([0x46#8, 0x34#8], .lsrDir 0x34#8),
    ([0x47#8, 0x34#8], .eorDirLong 0x34#8),
    ([0x48#8], .pha),
    ([0x49#8, 0x34#8, 0x12#8], .eorImm 0x1234#16),
    ([0x4A#8], .lsrAcc),
    ([0x4B#8], .phk),
    ([0x4C#8, 0x34#8, 0x12#8], .jmpAbs 0x1234#16),
    ([0x4D#8, 0x34#8, 0x12#8], .eorAbs 0x1234#16),
    ([0x4E#8, 0x34#8, 0x12#8], .lsrAbs 0x1234#16),
    ([0x4F#8, 0x56#8, 0x34#8, 0x12#8], .eorLong 0x123456#24)] = true := by decide

/-- Opcodes `$50` to `$5F`. -/
theorem test_decode_row_5 : allDecode [
    ([0x50#8, 0x34#8], .bvc 0x34#8),
    ([0x51#8, 0x34#8], .eorDirIndY 0x34#8),
    ([0x52#8, 0x34#8], .eorDirInd 0x34#8),
    ([0x53#8, 0x34#8], .eorStkSIndY 0x34#8),
    ([0x54#8, 0x34#8, 0x12#8], .mvn 0x34#8 0x12#8),
    ([0x55#8, 0x34#8], .eorDirX 0x34#8),
    ([0x56#8, 0x34#8], .lsrDirX 0x34#8),
    ([0x57#8, 0x34#8], .eorDirLongY 0x34#8),
    ([0x58#8], .cli),
    ([0x59#8, 0x34#8, 0x12#8], .eorAbsY 0x1234#16),
    ([0x5A#8], .phy),
    ([0x5B#8], .tcd),
    ([0x5C#8, 0x56#8, 0x34#8, 0x12#8], .jmpLong 0x123456#24),
    ([0x5D#8, 0x34#8, 0x12#8], .eorAbsX 0x1234#16),
    ([0x5E#8, 0x34#8, 0x12#8], .lsrAbsX 0x1234#16),
    ([0x5F#8, 0x56#8, 0x34#8, 0x12#8], .eorLongX 0x123456#24)] = true := by decide

/-- Opcodes `$60` to `$6F`. -/
theorem test_decode_row_6 : allDecode [
    ([0x60#8], .rts),
    ([0x61#8, 0x34#8], .adcDirXInd 0x34#8),
    ([0x62#8, 0x34#8, 0x12#8], .per 0x1234#16),
    ([0x63#8, 0x34#8], .adcStkS 0x34#8),
    ([0x64#8, 0x34#8], .stzDir 0x34#8),
    ([0x65#8, 0x34#8], .adcDir 0x34#8),
    ([0x66#8, 0x34#8], .rorDir 0x34#8),
    ([0x67#8, 0x34#8], .adcDirLong 0x34#8),
    ([0x68#8], .pla),
    ([0x69#8, 0x34#8, 0x12#8], .adcImm 0x1234#16),
    ([0x6A#8], .rorAcc),
    ([0x6B#8], .rtl),
    ([0x6C#8, 0x34#8, 0x12#8], .jmpAbsInd 0x1234#16),
    ([0x6D#8, 0x34#8, 0x12#8], .adcAbs 0x1234#16),
    ([0x6E#8, 0x34#8, 0x12#8], .rorAbs 0x1234#16),
    ([0x6F#8, 0x56#8, 0x34#8, 0x12#8], .adcLong 0x123456#24)] = true := by decide

/-- Opcodes `$70` to `$7F`. -/
theorem test_decode_row_7 : allDecode [
    ([0x70#8, 0x34#8], .bvs 0x34#8),
    ([0x71#8, 0x34#8], .adcDirIndY 0x34#8),
    ([0x72#8, 0x34#8], .adcDirInd 0x34#8),
    ([0x73#8, 0x34#8], .adcStkSIndY 0x34#8),
    ([0x74#8, 0x34#8], .stzDirX 0x34#8),
    ([0x75#8, 0x34#8], .adcDirX 0x34#8),
    ([0x76#8, 0x34#8], .rorDirX 0x34#8),
    ([0x77#8, 0x34#8], .adcDirLongY 0x34#8),
    ([0x78#8], .sei),
    ([0x79#8, 0x34#8, 0x12#8], .adcAbsY 0x1234#16),
    ([0x7A#8], .ply),
    ([0x7B#8], .tdc),
    ([0x7C#8, 0x34#8, 0x12#8], .jmpAbsXInd 0x1234#16),
    ([0x7D#8, 0x34#8, 0x12#8], .adcAbsX 0x1234#16),
    ([0x7E#8, 0x34#8, 0x12#8], .rorAbsX 0x1234#16),
    ([0x7F#8, 0x56#8, 0x34#8, 0x12#8], .adcLongX 0x123456#24)] = true := by decide

/-- Opcodes `$80` to `$8F`. -/
theorem test_decode_row_8 : allDecode [
    ([0x80#8, 0x34#8], .bra 0x34#8),
    ([0x81#8, 0x34#8], .staDirXInd 0x34#8),
    ([0x82#8, 0x34#8, 0x12#8], .brl 0x1234#16),
    ([0x83#8, 0x34#8], .staStkS 0x34#8),
    ([0x84#8, 0x34#8], .styDir 0x34#8),
    ([0x85#8, 0x34#8], .staDir 0x34#8),
    ([0x86#8, 0x34#8], .stxDir 0x34#8),
    ([0x87#8, 0x34#8], .staDirLong 0x34#8),
    ([0x88#8], .dey),
    ([0x89#8, 0x34#8, 0x12#8], .bitImm 0x1234#16),
    ([0x8A#8], .txa),
    ([0x8B#8], .phb),
    ([0x8C#8, 0x34#8, 0x12#8], .styAbs 0x1234#16),
    ([0x8D#8, 0x34#8, 0x12#8], .staAbs 0x1234#16),
    ([0x8E#8, 0x34#8, 0x12#8], .stxAbs 0x1234#16),
    ([0x8F#8, 0x56#8, 0x34#8, 0x12#8], .staLong 0x123456#24)] = true := by decide

/-- Opcodes `$90` to `$9F`. -/
theorem test_decode_row_9 : allDecode [
    ([0x90#8, 0x34#8], .bcc 0x34#8),
    ([0x91#8, 0x34#8], .staDirIndY 0x34#8),
    ([0x92#8, 0x34#8], .staDirInd 0x34#8),
    ([0x93#8, 0x34#8], .staStkSIndY 0x34#8),
    ([0x94#8, 0x34#8], .styDirX 0x34#8),
    ([0x95#8, 0x34#8], .staDirX 0x34#8),
    ([0x96#8, 0x34#8], .stxDirY 0x34#8),
    ([0x97#8, 0x34#8], .staDirLongY 0x34#8),
    ([0x98#8], .tya),
    ([0x99#8, 0x34#8, 0x12#8], .staAbsY 0x1234#16),
    ([0x9A#8], .txs),
    ([0x9B#8], .txy),
    ([0x9C#8, 0x34#8, 0x12#8], .stzAbs 0x1234#16),
    ([0x9D#8, 0x34#8, 0x12#8], .staAbsX 0x1234#16),
    ([0x9E#8, 0x34#8, 0x12#8], .stzAbsX 0x1234#16),
    ([0x9F#8, 0x56#8, 0x34#8, 0x12#8], .staLongX 0x123456#24)] = true := by decide

/-- Opcodes `$A0` to `$AF`. -/
theorem test_decode_row_A : allDecode [
    ([0xA0#8, 0x34#8, 0x12#8], .ldyImm 0x1234#16),
    ([0xA1#8, 0x34#8], .ldaDirXInd 0x34#8),
    ([0xA2#8, 0x34#8, 0x12#8], .ldxImm 0x1234#16),
    ([0xA3#8, 0x34#8], .ldaStkS 0x34#8),
    ([0xA4#8, 0x34#8], .ldyDir 0x34#8),
    ([0xA5#8, 0x34#8], .ldaDir 0x34#8),
    ([0xA6#8, 0x34#8], .ldxDir 0x34#8),
    ([0xA7#8, 0x34#8], .ldaDirLong 0x34#8),
    ([0xA8#8], .tay),
    ([0xA9#8, 0x34#8, 0x12#8], .ldaImm 0x1234#16),
    ([0xAA#8], .tax),
    ([0xAB#8], .plb),
    ([0xAC#8, 0x34#8, 0x12#8], .ldyAbs 0x1234#16),
    ([0xAD#8, 0x34#8, 0x12#8], .ldaAbs 0x1234#16),
    ([0xAE#8, 0x34#8, 0x12#8], .ldxAbs 0x1234#16),
    ([0xAF#8, 0x56#8, 0x34#8, 0x12#8], .ldaLong 0x123456#24)] = true := by decide

/-- Opcodes `$B0` to `$BF`. -/
theorem test_decode_row_B : allDecode [
    ([0xB0#8, 0x34#8], .bcs 0x34#8),
    ([0xB1#8, 0x34#8], .ldaDirIndY 0x34#8),
    ([0xB2#8, 0x34#8], .ldaDirInd 0x34#8),
    ([0xB3#8, 0x34#8], .ldaStkSIndY 0x34#8),
    ([0xB4#8, 0x34#8], .ldyDirX 0x34#8),
    ([0xB5#8, 0x34#8], .ldaDirX 0x34#8),
    ([0xB6#8, 0x34#8], .ldxDirY 0x34#8),
    ([0xB7#8, 0x34#8], .ldaDirLongY 0x34#8),
    ([0xB8#8], .clv),
    ([0xB9#8, 0x34#8, 0x12#8], .ldaAbsY 0x1234#16),
    ([0xBA#8], .tsx),
    ([0xBB#8], .tyx),
    ([0xBC#8, 0x34#8, 0x12#8], .ldyAbsX 0x1234#16),
    ([0xBD#8, 0x34#8, 0x12#8], .ldaAbsX 0x1234#16),
    ([0xBE#8, 0x34#8, 0x12#8], .ldxAbsY 0x1234#16),
    ([0xBF#8, 0x56#8, 0x34#8, 0x12#8], .ldaLongX 0x123456#24)] = true := by decide

/-- Opcodes `$C0` to `$CF`. -/
theorem test_decode_row_C : allDecode [
    ([0xC0#8, 0x34#8, 0x12#8], .cpyImm 0x1234#16),
    ([0xC1#8, 0x34#8], .cmpDirXInd 0x34#8),
    ([0xC2#8, 0x34#8], .rep 0x34#8),
    ([0xC3#8, 0x34#8], .cmpStkS 0x34#8),
    ([0xC4#8, 0x34#8], .cpyDir 0x34#8),
    ([0xC5#8, 0x34#8], .cmpDir 0x34#8),
    ([0xC6#8, 0x34#8], .decDir 0x34#8),
    ([0xC7#8, 0x34#8], .cmpDirLong 0x34#8),
    ([0xC8#8], .iny),
    ([0xC9#8, 0x34#8, 0x12#8], .cmpImm 0x1234#16),
    ([0xCA#8], .dex),
    ([0xCB#8], .wai),
    ([0xCC#8, 0x34#8, 0x12#8], .cpyAbs 0x1234#16),
    ([0xCD#8, 0x34#8, 0x12#8], .cmpAbs 0x1234#16),
    ([0xCE#8, 0x34#8, 0x12#8], .decAbs 0x1234#16),
    ([0xCF#8, 0x56#8, 0x34#8, 0x12#8], .cmpLong 0x123456#24)] = true := by decide

/-- Opcodes `$D0` to `$DF`. -/
theorem test_decode_row_D : allDecode [
    ([0xD0#8, 0x34#8], .bne 0x34#8),
    ([0xD1#8, 0x34#8], .cmpDirIndY 0x34#8),
    ([0xD2#8, 0x34#8], .cmpDirInd 0x34#8),
    ([0xD3#8, 0x34#8], .cmpStkSIndY 0x34#8),
    ([0xD4#8, 0x34#8], .pei 0x34#8),
    ([0xD5#8, 0x34#8], .cmpDirX 0x34#8),
    ([0xD6#8, 0x34#8], .decDirX 0x34#8),
    ([0xD7#8, 0x34#8], .cmpDirLongY 0x34#8),
    ([0xD8#8], .cld),
    ([0xD9#8, 0x34#8, 0x12#8], .cmpAbsY 0x1234#16),
    ([0xDA#8], .phx),
    ([0xDB#8], .stp),
    ([0xDC#8, 0x34#8, 0x12#8], .jmpAbsLong 0x1234#16),
    ([0xDD#8, 0x34#8, 0x12#8], .cmpAbsX 0x1234#16),
    ([0xDE#8, 0x34#8, 0x12#8], .decAbsX 0x1234#16),
    ([0xDF#8, 0x56#8, 0x34#8, 0x12#8], .cmpLongX 0x123456#24)] = true := by decide

/-- Opcodes `$E0` to `$EF`. -/
theorem test_decode_row_E : allDecode [
    ([0xE0#8, 0x34#8, 0x12#8], .cpxImm 0x1234#16),
    ([0xE1#8, 0x34#8], .sbcDirXInd 0x34#8),
    ([0xE2#8, 0x34#8], .sep 0x34#8),
    ([0xE3#8, 0x34#8], .sbcStkS 0x34#8),
    ([0xE4#8, 0x34#8], .cpxDir 0x34#8),
    ([0xE5#8, 0x34#8], .sbcDir 0x34#8),
    ([0xE6#8, 0x34#8], .incDir 0x34#8),
    ([0xE7#8, 0x34#8], .sbcDirLong 0x34#8),
    ([0xE8#8], .inx),
    ([0xE9#8, 0x34#8, 0x12#8], .sbcImm 0x1234#16),
    ([0xEA#8], .nop),
    ([0xEB#8], .xba),
    ([0xEC#8, 0x34#8, 0x12#8], .cpxAbs 0x1234#16),
    ([0xED#8, 0x34#8, 0x12#8], .sbcAbs 0x1234#16),
    ([0xEE#8, 0x34#8, 0x12#8], .incAbs 0x1234#16),
    ([0xEF#8, 0x56#8, 0x34#8, 0x12#8], .sbcLong 0x123456#24)] = true := by decide

/-- Opcodes `$F0` to `$FF`. -/
theorem test_decode_row_F : allDecode [
    ([0xF0#8, 0x34#8], .beq 0x34#8),
    ([0xF1#8, 0x34#8], .sbcDirIndY 0x34#8),
    ([0xF2#8, 0x34#8], .sbcDirInd 0x34#8),
    ([0xF3#8, 0x34#8], .sbcStkSIndY 0x34#8),
    ([0xF4#8, 0x34#8, 0x12#8], .pea 0x1234#16),
    ([0xF5#8, 0x34#8], .sbcDirX 0x34#8),
    ([0xF6#8, 0x34#8], .incDirX 0x34#8),
    ([0xF7#8, 0x34#8], .sbcDirLongY 0x34#8),
    ([0xF8#8], .sed),
    ([0xF9#8, 0x34#8, 0x12#8], .sbcAbsY 0x1234#16),
    ([0xFA#8], .plx),
    ([0xFB#8], .xce),
    ([0xFC#8, 0x34#8, 0x12#8], .jsrAbsXInd 0x1234#16),
    ([0xFD#8, 0x34#8, 0x12#8], .sbcAbsX 0x1234#16),
    ([0xFE#8, 0x34#8, 0x12#8], .incAbsX 0x1234#16),
    ([0xFF#8, 0x56#8, 0x34#8, 0x12#8], .sbcLongX 0x123456#24)] = true := by decide

/-- A word cut short is refused by name. -/
theorem test_decode_truncated : decode false false [0xAF#8, 0x56#8, 0x34#8] = .error .truncated := by decide

/-! ### Results that the spec states: one step each -/

/-- `95_test_vectors.md V1`. -/
theorem test_V1_adc :
    view (fun t => (t.C, t.PC, t.P)) (step ({ start false 0x01#8 0x00#8 0x8000#16 [(0x000014, 0x00), (0x000015, 0x30), (0x008000, 0x61), (0x008001, 0x10), (0x7E3000, 0xFF), (0x7E3001, 0x7F)] with C := 0x0000#16, X := 0x0004#16, DBR := 0x7E#8 })) =
      some (0x8000#16, 0x8002#16, 0xC0#8) := by decide

/-- `95_test_vectors.md V2`. -/
theorem test_V2_adc :
    view (fun t => (t.C, t.PC, t.P)) (step ({ start true 0x30#8 0x00#8 0x8000#16 [(0x008000, 0x69), (0x008001, 0x01)] with C := 0x12FF#16 })) =
      some (0x1200#16, 0x8002#16, 0x33#8) := by decide

/-- `95_test_vectors.md V3`. -/
theorem test_V3_sbc :
    view (fun t => (t.C, t.PC, t.P)) (step ({ start false 0x00#8 0x00#8 0x8000#16 [(0x008000, 0xED), (0x008001, 0xFF), (0x008002, 0xFF), (0x12FFFF, 0x01), (0x130000, 0x00)] with C := 0x0001#16, DBR := 0x12#8 })) =
      some (0xFFFF#16, 0x8003#16, 0x80#8) := by decide

/-- `95_test_vectors.md V4`. -/
theorem test_V4_adc :
    view (fun t => (t.C, t.PC)) (step ({ start false 0x08#8 0x00#8 0x8000#16 [(0x008000, 0x69), (0x008001, 0x01), (0x008002, 0x00)] with C := 0x9999#16 })) =
      some (0x0000#16, 0x8003#16) := by decide

/-- `95_test_vectors.md V5`. -/
theorem test_V5_sbc :
    view (fun t => (t.C, t.PC)) (step ({ start false 0x29#8 0x00#8 0x8000#16 [(0x008000, 0xE9), (0x008001, 0x01)] with C := 0xAB00#16 })) =
      some (0xAB99#16, 0x8002#16) := by decide

/-- `95_test_vectors.md V6`. -/
theorem test_V6_adc :
    view (fun t => (t.C, t.PC)) (step ({ start true 0x30#8 0x00#8 0x8000#16 [(0x000202, 0x10), (0x008000, 0x63), (0x008001, 0x03)] with C := 0x0020#16, S := 0x01FF#16 })) =
      some (0x0030#16, 0x8002#16) := by decide

/-- `95_test_vectors.md V7`. -/
theorem test_V7_cmp :
    view (fun t => t.PC) (step ({ start false 0x48#8 0x00#8 0x8000#16 [(0x008000, 0xC9), (0x008001, 0xFF), (0x008002, 0xFF)] with C := 0x0000#16 })) =
      some 0x8003#16 := by decide

/-- `95_test_vectors.md V8`. -/
theorem test_V8_cpx :
    view (fun t => (t.PC, t.P)) (step ({ start false 0x10#8 0x00#8 0x8000#16 [(0x008000, 0xE0), (0x008001, 0x80)] with X := 0x0080#16 })) =
      some (0x8002#16, 0x13#8) := by decide

/-- `95_test_vectors.md V9`. -/
theorem test_V9_cpy :
    view (fun t => (t.PC, t.P)) (step ({ start false 0x00#8 0x00#8 0x8000#16 [(0x000000, 0x12), (0x008000, 0xC4), (0x008001, 0x10), (0x00FFFF, 0x34)] with Y := 0x1234#16, D := 0xFFEF#16 })) =
      some (0x8002#16, 0x03#8) := by decide

/-- `95_test_vectors.md V10`. -/
theorem test_V10_inc :
    view (fun t => (t.PC, t.P, t.read 0x011233#24, t.read 0x011234#24)) (step ({ start false 0x01#8 0x00#8 0x8000#16 [(0x008000, 0xFE), (0x008001, 0x34), (0x008002, 0x12), (0x011233, 0xFF), (0x011234, 0xFF)] with X := 0xFFFF#16, DBR := 0x00#8 })) =
      some (0x8003#16, 0x03#8, 0x00#8, 0x00#8) := by decide

/-- `95_test_vectors.md V11`. -/
theorem test_V11_dec :
    view (fun t => (t.C, t.PC, t.P)) (step ({ start true 0x30#8 0x00#8 0x8000#16 [(0x008000, 0x3A)] with C := 0x5500#16 })) =
      some (0x55FF#16, 0x8001#16, 0xB0#8) := by decide

/-- `95_test_vectors.md V12`. -/
theorem test_V12_dey :
    view (fun t => (t.Y, t.PC, t.P)) (step ({ start false 0x10#8 0x00#8 0x8000#16 [(0x008000, 0x88)] with Y := 0x0000#16 })) =
      some (0x00FF#16, 0x8001#16, 0x90#8) := by decide

/-- `95_test_vectors.md V13`. -/
theorem test_V13_inx :
    view (fun t => (t.X, t.PC, t.P)) (step ({ start false 0x00#8 0x00#8 0x8000#16 [(0x008000, 0xE8)] with X := 0xFFFF#16 })) =
      some (0x0000#16, 0x8001#16, 0x02#8) := by decide

/-- `95_test_vectors.md V14`. -/
theorem test_V14_and :
    view (fun t => (t.C, t.PC)) (step ({ start false 0x20#8 0x00#8 0x8000#16 [(0x000010, 0xFE), (0x000011, 0xFF), (0x000012, 0x7F), (0x008000, 0x37), (0x008001, 0x10), (0x7FFFFF, 0x00), (0x800000, 0x0F)] with C := 0x12FF#16, Y := 0x0002#16 })) =
      some (0x120F#16, 0x8002#16) := by decide

/-- `95_test_vectors.md V15`. -/
theorem test_V15_ora :
    view (fun t => (t.C, t.PC, t.P)) (step ({ start true 0x30#8 0x00#8 0x8000#16 [(0x000000, 0x40), (0x0000FF, 0x00), (0x000100, 0x99), (0x004000, 0x80), (0x008000, 0x12), (0x008001, 0xFF)] with C := 0x0001#16 })) =
      some (0x0081#16, 0x8002#16, 0xB0#8) := by decide

/-- `95_test_vectors.md V16`. -/
theorem test_V16_eor :
    view (fun t => (t.C, t.PC, t.P)) (step ({ start false 0x00#8 0x00#8 0x8000#16 [(0x000000, 0xFF), (0x008000, 0x4F), (0x008001, 0xFF), (0x008002, 0xFF), (0x008003, 0xFF), (0xFFFFFF, 0xFF)] with C := 0xFFFF#16 })) =
      some (0x0000#16, 0x8004#16, 0x02#8) := by decide

/-- `95_test_vectors.md V17`. -/
theorem test_V17_bit :
    view (fun t => (t.PC, t.P)) (step ({ start false 0xC0#8 0x00#8 0x8000#16 [(0x008000, 0x89), (0x008001, 0x00), (0x008002, 0x80)] with C := 0x7FFF#16 })) =
      some (0x8003#16, 0xC2#8) := by decide

/-- `95_test_vectors.md V18`. -/
theorem test_V18_bit :
    view (fun t => (t.PC, t.P)) (step ({ start false 0x30#8 0x00#8 0x8000#16 [(0x000015, 0x40), (0x008000, 0x34), (0x008001, 0x10)] with C := 0x00FF#16, X := 0x0005#16 })) =
      some (0x8002#16, 0x70#8) := by decide

/-- `95_test_vectors.md V19`. -/
theorem test_V19_trb :
    view (fun t => (t.PC, t.read 0x000010#24, t.read 0x000011#24)) (step ({ start false 0x00#8 0x00#8 0x8000#16 [(0x000010, 0xFF), (0x000011, 0xFF), (0x008000, 0x14), (0x008001, 0x10)] with C := 0x8001#16 })) =
      some (0x8002#16, 0xFE#8, 0x7F#8) := by decide

/-- `95_test_vectors.md V20`. -/
theorem test_V20_tsb :
    view (fun t => (t.PC, t.P, t.read 0x002000#24)) (step ({ start true 0x30#8 0x00#8 0x8000#16 [(0x002000, 0x00), (0x008000, 0x0C), (0x008001, 0x00), (0x008002, 0x20)] with C := 0xFF80#16 })) =
      some (0x8003#16, 0x32#8, 0x80#8) := by decide

/-- `95_test_vectors.md V21`. -/
theorem test_V21_asl :
    view (fun t => (t.C, t.PC, t.P)) (step ({ start false 0x00#8 0x00#8 0x8000#16 [(0x008000, 0x0A)] with C := 0xC000#16 })) =
      some (0x8000#16, 0x8001#16, 0x81#8) := by decide

/-- `95_test_vectors.md V22`. -/
theorem test_V22_lsr :
    view (fun t => (t.PC, t.P, t.read 0x000010#24, t.read 0x000011#24)) (step ({ start false 0x80#8 0x00#8 0x8000#16 [(0x000010, 0x01), (0x000011, 0x00), (0x008000, 0x46), (0x008001, 0x10)] with C := 0x0000#16 })) =
      some (0x8002#16, 0x03#8, 0x00#8, 0x00#8) := by decide

/-- `95_test_vectors.md V23`. -/
theorem test_V23_rol :
    view (fun t => (t.PC, t.read 0x002001#24)) (step ({ start true 0x31#8 0x00#8 0x8000#16 [(0x002001, 0x80), (0x008000, 0x3E), (0x008001, 0x00), (0x008002, 0x20)] with X := 0x0001#16 })) =
      some (0x8003#16, 0x01#8) := by decide

/-- `95_test_vectors.md V24`. -/
theorem test_V24_ror :
    view (fun t => (t.C, t.PC, t.P)) (step ({ start false 0x21#8 0x00#8 0x8000#16 [(0x008000, 0x6A)] with C := 0xAA00#16 })) =
      some (0xAA80#16, 0x8001#16, 0xA0#8) := by decide

/-- `95_test_vectors.md V25`. -/
theorem test_V25_ror :
    view (fun t => (t.PC, t.P, t.read 0x000012#24, t.read 0x000013#24)) (step ({ start false 0x01#8 0x00#8 0x8000#16 [(0x000012, 0x01), (0x000013, 0x00), (0x008000, 0x76), (0x008001, 0x10)] with X := 0x0002#16 })) =
      some (0x8002#16, 0x81#8, 0x00#8, 0x80#8) := by decide

/-- `95_test_vectors.md V26`. -/
theorem test_V26_bcs :
    view (fun t => t.PC) (step (start false 0x01#8 0x00#8 0x8000#16 [(0x008000, 0xB0), (0x008001, 0x00)])) =
      some 0x8002#16 := by decide

/-- `95_test_vectors.md V27`. -/
theorem test_V27_bmi :
    view (fun t => t.PC) (step (start false 0x80#8 0x34#8 0x0000#16 [(0x340000, 0x30), (0x340001, 0x80)])) =
      some 0xFF82#16 := by decide

/-- `95_test_vectors.md V28`. -/
theorem test_V28_bvc :
    view (fun t => t.PC) (step (start false 0x00#8 0x00#8 0xFFF0#16 [(0x00FFF0, 0x50), (0x00FFF1, 0x7F)])) =
      some 0x0071#16 := by decide

/-- `95_test_vectors.md V29`. -/
theorem test_V29_beq :
    view (fun t => t.PC) (step (start false 0x00#8 0x00#8 0x8000#16 [(0x008000, 0xF0), (0x008001, 0x10)])) =
      some 0x8002#16 := by decide

/-- `95_test_vectors.md V30`. -/
theorem test_V30_brl :
    view (fun t => t.PC) (step (start false 0x00#8 0x12#8 0xFFFD#16 [(0x12FFFD, 0x82), (0x12FFFE, 0x00), (0x12FFFF, 0x00)])) =
      some 0x0000#16 := by decide

/-- `95_test_vectors.md V31`. -/
theorem test_V31_jmp :
    view (fun t => t.PC) (step ({ start false 0x00#8 0x7E#8 0x8000#16 [(0x002000, 0xCD), (0x002001, 0xAB), (0x7E2000, 0x11), (0x7E2001, 0x11), (0x7E8000, 0x6C), (0x7E8001, 0x00), (0x7E8002, 0x20)] with DBR := 0x7E#8 })) =
      some 0xABCD#16 := by decide

/-- `95_test_vectors.md V34`. -/
theorem test_V34_jmp :
    view (fun t => (t.K, t.PC)) (step (start false 0x00#8 0x00#8 0x8000#16 [(0x000000, 0x7F), (0x008000, 0xDC), (0x008001, 0xFE), (0x008002, 0xFF), (0x00FFFE, 0x00), (0x00FFFF, 0x80)])) =
      some (0x7F#8, 0x8000#16) := by decide

/-- `95_test_vectors.md V35`. -/
theorem test_V35_jsr :
    view (fun t => (t.S, t.PC, t.read 0x0001FF#24, t.read 0x0001FE#24)) (step ({ start false 0x00#8 0x12#8 0x8000#16 [(0x128000, 0xFC), (0x128001, 0x10), (0x128002, 0x80), (0x128014, 0x00), (0x128015, 0xA0)] with X := 0x0004#16, S := 0x01FF#16 })) =
      some (0x01FD#16, 0xA000#16, 0x80#8, 0x02#8) := by decide

/-- `95_test_vectors.md V37`. -/
theorem test_V37_cop :
    view (fun t => (t.S, t.K, t.PC, t.P, t.read 0x001FFF#24, t.read 0x001FFE#24, t.read 0x001FFD#24, t.read 0x001FFC#24)) (step ({ start false 0xFB#8 0x7E#8 0x1000#16 [(0x00FFE4, 0x34), (0x00FFE5, 0x12), (0x7E1000, 0x02), (0x7E1001, 0x00)] with S := 0x1FFF#16 })) =
      some (0x1FFB#16, 0x00#8, 0x1234#16, 0xF7#8, 0x7E#8, 0x10#8, 0x02#8, 0xFB#8) := by decide

/-- `95_test_vectors.md V38`. -/
theorem test_V38_rti :
    view (fun t => (t.X, t.Y, t.S, t.K, t.PC, t.P)) (step ({ start false 0x00#8 0x00#8 0x8000#16 [(0x0001FC, 0xFF), (0x0001FD, 0x00), (0x0001FE, 0x80), (0x0001FF, 0x7E), (0x008000, 0x40)] with X := 0x1234#16, Y := 0x5678#16, S := 0x01FB#16 })) =
      some (0x0034#16, 0x0078#16, 0x01FF#16, 0x7E#8, 0x8000#16, 0xFF#8) := by decide

/-- `95_test_vectors.md V39`. -/
theorem test_V39_sep :
    view (fun t => (t.X, t.Y, t.PC, t.P)) (step ({ start false 0x00#8 0x00#8 0x8000#16 [(0x008000, 0xE2), (0x008001, 0x30)] with C := 0xABCD#16, X := 0xFFFF#16, Y := 0x8000#16 })) =
      some (0x00FF#16, 0x0000#16, 0x8002#16, 0x30#8) := by decide

/-- `95_test_vectors.md V40`. -/
theorem test_V40_rep :
    view (fun t => (t.PC, t.P)) (step (start false 0xFF#8 0x00#8 0x8000#16 [(0x008000, 0xC2), (0x008001, 0xFF)])) =
      some (0x8002#16, 0x00#8) := by decide

/-- `95_test_vectors.md V41`. -/
theorem test_V41_sep :
    view (fun t => (t.PC, t.P)) (step (start true 0x30#8 0x00#8 0x8000#16 [(0x008000, 0xE2), (0x008001, 0xCF)])) =
      some (0x8002#16, 0xFF#8) := by decide

/-- `95_test_vectors.md V42`. -/
theorem test_V42_cli :
    view (fun t => (t.PC, t.P)) (step (start true 0x34#8 0x00#8 0x8000#16 [(0x008000, 0x58)])) =
      some (0x8001#16, 0x30#8) := by decide

/-- `95_test_vectors.md V43`. -/
theorem test_V43_sed :
    view (fun t => (t.PC, t.P)) (step (start true 0x30#8 0x00#8 0x8000#16 [(0x008000, 0xF8)])) =
      some (0x8001#16, 0x38#8) := by decide

/-- `95_test_vectors.md V44`. -/
theorem test_V44_lda :
    view (fun t => (t.C, t.PC, t.P)) (step ({ start false 0x00#8 0x00#8 0x8000#16 [(0x00000A, 0xF0), (0x00000B, 0xFF), (0x008000, 0xB3), (0x008001, 0xFA), (0x130040, 0xCD), (0x130041, 0xAB)] with Y := 0x0050#16, S := 0xFF10#16, DBR := 0x12#8 })) =
      some (0xABCD#16, 0x8002#16, 0x80#8) := by decide

/-- `95_test_vectors.md V45`. -/
theorem test_V45_ldy :
    view (fun t => (t.Y, t.PC, t.P)) (step ({ start true 0x30#8 0x00#8 0x8000#16 [(0x000000, 0x80), (0x008000, 0xBC), (0x008001, 0xFF), (0x008002, 0xFF)] with X := 0x0001#16, DBR := 0xFF#8 })) =
      some (0x0080#16, 0x8003#16, 0xB0#8) := by decide

/-- `95_test_vectors.md V46`. -/
theorem test_V46_sta :
    view (fun t => (t.PC, t.read 0x010000#24)) (step ({ start true 0x30#8 0x00#8 0x8000#16 [(0x000010, 0xFF), (0x000011, 0xFF), (0x008000, 0x91), (0x008001, 0x10)] with C := 0x0055#16, Y := 0x0001#16, DBR := 0x00#8 })) =
      some (0x8002#16, 0x55#8) := by decide

/-- `95_test_vectors.md V47`. -/
theorem test_V47_stx :
    view (fun t => (t.PC, t.read 0x00FFFF#24, t.read 0x000000#24)) (step ({ start false 0x00#8 0x00#8 0x8000#16 [(0x008000, 0x86), (0x008001, 0xFF)] with X := 0xBEEF#16, D := 0xFF00#16 })) =
      some (0x8002#16, 0xEF#8, 0xBE#8) := by decide

/-- `95_test_vectors.md V48`. -/
theorem test_V48_sty :
    view (fun t => (t.PC, t.read 0x7E1234#24)) (step ({ start false 0x10#8 0x00#8 0x8000#16 [(0x008000, 0x8C), (0x008001, 0x34), (0x008002, 0x12)] with Y := 0x0077#16, DBR := 0x7E#8 })) =
      some (0x8003#16, 0x77#8) := by decide

/-- `95_test_vectors.md V49`. -/
theorem test_V49_stz :
    view (fun t => (t.PC, t.read 0x7E2010#24, t.read 0x7E2011#24)) (step ({ start false 0x00#8 0x00#8 0x8000#16 [(0x008000, 0x9E), (0x008001, 0x00), (0x008002, 0x20), (0x7E2010, 0xAA), (0x7E2011, 0xBB)] with X := 0x0010#16, DBR := 0x7E#8 })) =
      some (0x8003#16, 0x00#8, 0x00#8) := by decide

/-- `95_test_vectors.md V50`. -/
theorem test_V50_ldx :
    view (fun t => (t.X, t.PC)) (step ({ start true 0x30#8 0x00#8 0x8000#16 [(0x000005, 0x7F), (0x000105, 0x00), (0x008000, 0xB6), (0x008001, 0x10)] with Y := 0x00F5#16, D := 0x0000#16 })) =
      some (0x007F#16, 0x8002#16) := by decide

/-- `95_test_vectors.md V51`. -/
theorem test_V51_lda :
    view (fun t => (t.C, t.PC, t.P)) (step ({ start true 0x30#8 0x00#8 0x8000#16 [(0x008000, 0xA9), (0x008001, 0x80)] with C := 0x7F00#16 })) =
      some (0x7F80#16, 0x8002#16, 0xB0#8) := by decide

/-- `95_test_vectors.md V55`. -/
theorem test_V55_nop :
    view (fun t => t.PC) (step (start true 0xFF#8 0x00#8 0x8000#16 [(0x008000, 0xEA)])) =
      some 0x8001#16 := by decide

/-- `95_test_vectors.md V56`. -/
theorem test_V56_wdm :
    view (fun t => t.PC) (step (start false 0x00#8 0x00#8 0xFFFF#16 [(0x000000, 0xFF), (0x00FFFF, 0x42)])) =
      some 0x0001#16 := by decide

/-- `95_test_vectors.md V60`. -/
theorem test_V60_pei :
    view (fun t => (t.S, t.PC, t.read 0x000000#24, t.read 0x00FFFF#24)) (step ({ start false 0x30#8 0x00#8 0x8000#16 [(0x0000FF, 0x34), (0x000100, 0x12), (0x008000, 0xD4), (0x008001, 0xFF)] with S := 0x0000#16, D := 0x0000#16 })) =
      some (0xFFFE#16, 0x8002#16, 0x12#8, 0x34#8) := by decide

/-- `95_test_vectors.md V61`. -/
theorem test_V61_per :
    view (fun t => (t.S, t.PC, t.read 0x0001FF#24, t.read 0x0001FE#24)) (step ({ start false 0x00#8 0x00#8 0x8000#16 [(0x008000, 0x62), (0x008001, 0xFD), (0x008002, 0xFF)] with S := 0x01FF#16 })) =
      some (0x01FD#16, 0x8003#16, 0x80#8, 0x00#8) := by decide

/-- `95_test_vectors.md V62`. -/
theorem test_V62_plb :
    view (fun t => (t.S, t.DBR, t.PC, t.P)) (step ({ start false 0x00#8 0x00#8 0x8000#16 [(0x000100, 0x80), (0x008000, 0xAB)] with S := 0x00FF#16 })) =
      some (0x0100#16, 0x80#8, 0x8001#16, 0x80#8) := by decide

/-- `95_test_vectors.md V64`. -/
theorem test_V64_plp :
    view (fun t => (t.S, t.PC, t.P)) (step ({ start true 0x30#8 0x00#8 0x8000#16 [(0x000180, 0xCF), (0x008000, 0x28)] with S := 0x017F#16 })) =
      some (0x0180#16, 0x8001#16, 0xFF#8) := by decide

/-- `95_test_vectors.md V65`. -/
theorem test_V65_phy :
    view (fun t => (t.S, t.PC, t.read 0x000100#24)) (step ({ start true 0x30#8 0x00#8 0x8000#16 [(0x008000, 0x5A)] with Y := 0x0042#16, S := 0x0100#16 })) =
      some (0x01FF#16, 0x8001#16, 0x42#8) := by decide

/-- `95_test_vectors.md V68`. -/
theorem test_V68_tcs :
    view (fun t => (t.S, t.PC)) (step ({ start true 0x30#8 0x00#8 0x8000#16 [(0x008000, 0x1B)] with C := 0x7E80#16, S := 0x01FF#16 })) =
      some (0x0180#16, 0x8001#16) := by decide

/-- `95_test_vectors.md V69`. -/
theorem test_V69_tsc :
    view (fun t => (t.C, t.PC, t.P)) (step ({ start false 0x30#8 0x00#8 0x8000#16 [(0x008000, 0x3B)] with C := 0x0000#16, S := 0x8000#16 })) =
      some (0x8000#16, 0x8001#16, 0xB0#8) := by decide

/-- `95_test_vectors.md V70`. -/
theorem test_V70_tay :
    view (fun t => (t.Y, t.PC, t.P)) (step ({ start false 0x20#8 0x00#8 0x8000#16 [(0x008000, 0xA8)] with C := 0x8000#16, Y := 0x0001#16 })) =
      some (0x8000#16, 0x8001#16, 0xA0#8) := by decide

/-- `95_test_vectors.md V71`. -/
theorem test_V71_tya :
    view (fun t => (t.C, t.PC)) (step ({ start false 0x10#8 0x00#8 0x8000#16 [(0x008000, 0x98)] with C := 0xFFFF#16, Y := 0x0080#16 })) =
      some (0x0080#16, 0x8001#16) := by decide

/-- `95_test_vectors.md V72`. -/
theorem test_V72_txs :
    view (fun t => (t.S, t.PC)) (step ({ start false 0x10#8 0x00#8 0x8000#16 [(0x008000, 0x9A)] with X := 0x0080#16, S := 0x01FF#16 })) =
      some (0x0080#16, 0x8001#16) := by decide

/-- `95_test_vectors.md V73`. -/
theorem test_V73_xba :
    view (fun t => (t.C, t.PC, t.P)) (step ({ start true 0x30#8 0x00#8 0x8000#16 [(0x008000, 0xEB)] with C := 0x00FF#16 })) =
      some (0xFF00#16, 0x8001#16, 0x32#8) := by decide

/-- `95_test_vectors.md V74`. -/
theorem test_V74_xce :
    view (fun t => (t.X, t.Y, t.S, t.PC, t.P, t.e)) (step ({ start false 0x01#8 0x00#8 0x8000#16 [(0x008000, 0xFB)] with X := 0xFFFF#16, Y := 0xFFFF#16, S := 0x2345#16 })) =
      some (0x00FF#16, 0x00FF#16, 0x0145#16, 0x8001#16, 0x30#8, true) := by decide

/-- `95_test_vectors.md V76`. -/
theorem test_V76_tcd :
    view (fun t => (t.D, t.PC, t.P)) (step ({ start true 0x30#8 0x00#8 0x8000#16 [(0x008000, 0x5B)] with C := 0x0000#16, D := 0x1234#16 })) =
      some (0x0000#16, 0x8001#16, 0x32#8) := by decide

/-- `95_test_vectors.md V77`. -/
theorem test_V77_tsx :
    view (fun t => (t.X, t.PC, t.P)) (step ({ start false 0x10#8 0x00#8 0x8000#16 [(0x008000, 0xBA)] with X := 0x0000#16, S := 0x1280#16 })) =
      some (0x0080#16, 0x8001#16, 0x90#8) := by decide

/-- `95_test_vectors.md V78`. -/
theorem test_V78_irq_native :
    view (fun t => (t.S, t.K, t.PC, t.P, t.read 0x0001FF#24, t.read 0x0001FE#24, t.read 0x0001FD#24, t.read 0x0001FC#24)) (step ({ start false 0x08#8 0x7E#8 0x8000#16 [(0x00FFEE, 0x00), (0x00FFEF, 0x90), (0x7E8000, 0xEA)] with S := 0x01FF#16, pending := { abort := false, irq := true, nmi := false, reset := false } })) =
      some (0x01FB#16, 0x00#8, 0x9000#16, 0x04#8, 0x7E#8, 0x80#8, 0x00#8, 0x08#8) := by decide

/-- `95_test_vectors.md V79`. -/
theorem test_V79_irq_masked :
    view (fun t => t.PC) (step ({ start false 0x04#8 0x00#8 0x8000#16 [(0x008000, 0xEA)] with pending := { abort := false, irq := true, nmi := false, reset := false } })) =
      some 0x8001#16 := by decide

/-- `95_test_vectors.md V80`. -/
theorem test_V80_abort_emulation :
    view (fun t => (t.S, t.PC, t.P, t.read 0x0001FF#24, t.read 0x0001FE#24, t.read 0x0001FD#24)) (step ({ start true 0x30#8 0x00#8 0x8000#16 [(0x008000, 0xA5), (0x008001, 0x10), (0x00FFF8, 0x00), (0x00FFF9, 0xB0)] with S := 0x01FF#16, pending := { abort := true, irq := false, nmi := false, reset := false } })) =
      some (0x01FC#16, 0xB000#16, 0x34#8, 0x80#8, 0x00#8, 0x20#8) := by decide

/-- `44_branches.md R254`. -/
theorem test_R254_bne :
    view (fun t => t.PC) (step (start false 0x00#8 0xAB#8 0xC000#16 [(0xABC000, 0xD0), (0xABC001, 0x21)])) =
      some 0xC023#16 := by decide

/-- `44_branches.md R254`. -/
theorem test_R254_bcc :
    view (fun t => (t.K, t.PC)) (step (start false 0x00#8 0x13#8 0x0020#16 [(0x130020, 0x90), (0x130021, 0x9E)])) =
      some (0x13#8, 0xFFC0#16) := by decide

/-- `44_branches.md R254`. -/
theorem test_R254_bpl :
    view (fun t => t.PC) (step (start false 0x00#8 0x00#8 0x0003#16 [(0x000003, 0x10), (0x000004, 0xFB)])) =
      some 0x0000#16 := by decide

/-- `44_branches.md R254`. -/
theorem test_R254_bra :
    view (fun t => t.PC) (step (start false 0x00#8 0x00#8 0x1000#16 [(0x001000, 0x80), (0x001001, 0xFE)])) =
      some 0x1000#16 := by decide

/-- `44_branches.md R254`. -/
theorem test_R254_bvs :
    view (fun t => t.PC) (step (start false 0x40#8 0x00#8 0x1000#16 [(0x001000, 0x70), (0x001001, 0x02)])) =
      some 0x1004#16 := by decide

/-- `44_branches.md R254`. -/
theorem test_R254_bvc :
    view (fun t => t.PC) (step (start false 0x40#8 0x00#8 0x1000#16 [(0x001000, 0x50), (0x001001, 0x02)])) =
      some 0x1002#16 := by decide

/-- `44_branches.md R254`. -/
theorem test_R254_beq :
    view (fun t => t.PC) (step (start false 0x02#8 0x00#8 0x2000#16 [(0x002000, 0xF0), (0x002001, 0x80)])) =
      some 0x1F82#16 := by decide

/-- `44_branches.md R254`. -/
theorem test_R254_bcs :
    view (fun t => t.PC) (step (start false 0x01#8 0x00#8 0x2000#16 [(0x002000, 0xB0), (0x002001, 0x7F)])) =
      some 0x2081#16 := by decide

/-- `44_branches.md R254`. -/
theorem test_R254_brl :
    view (fun t => (t.K, t.PC)) (step (start false 0x00#8 0x13#8 0xE000#16 [(0x13E000, 0x82), (0x13E001, 0xFD), (0x13E002, 0x3F)])) =
      some (0x13#8, 0x2000#16) := by decide

/-- `45_jumps_calls.md R272`. -/
theorem test_R272_jmp_abs :
    view (fun t => (t.K, t.PC)) (step (start false 0x00#8 0x12#8 0x0000#16 [(0x120000, 0x4C), (0x120001, 0xFF), (0x120002, 0xFF)])) =
      some (0x12#8, 0xFFFF#16) := by decide

/-- `45_jumps_calls.md R272`. -/
theorem test_R272_jmp_long :
    view (fun t => (t.K, t.PC)) (step (start false 0x00#8 0x00#8 0x8000#16 [(0x008000, 0x5C), (0x008001, 0xBA), (0x008002, 0xDC), (0x008003, 0xFE)])) =
      some (0xFE#8, 0xDCBA#16) := by decide

/-- `45_jumps_calls.md R272`. -/
theorem test_R272_jmp_abs_x :
    view (fun t => (t.K, t.PC)) (step ({ start false 0x00#8 0x12#8 0x0000#16 [(0x120000, 0x7C), (0x120001, 0xFE), (0x120002, 0xFF), (0x120008, 0x56), (0x120009, 0x34)] with X := 0x000A#16 })) =
      some (0x12#8, 0x3456#16) := by decide

/-- `45_jumps_calls.md R272`. -/
theorem test_R272_jsr :
    view (fun t => (t.PC, t.S, t.read 0x000100#24, t.read 0x0001FF#24)) (step ({ start true 0x30#8 0x00#8 0x3456#16 [(0x003456, 0x20), (0x003457, 0xCD), (0x003458, 0xAB)] with S := 0x0100#16 })) =
      some (0xABCD#16, 0x01FE#16, 0x34#8, 0x58#8) := by decide

/-- `45_jumps_calls.md R272`. -/
theorem test_R272_jsr_x :
    view (fun t => (t.PC, t.S, t.read 0x000100#24, t.read 0x0000FF#24)) (step ({ start true 0x30#8 0x00#8 0x3456#16 [(0x003456, 0xFC), (0x003457, 0x00), (0x003458, 0x90), (0x009000, 0x00), (0x009001, 0xA0)] with S := 0x0100#16 })) =
      some (0xA000#16, 0x01FE#16, 0x34#8, 0x58#8) := by decide

/-- `45_jumps_calls.md R272`. -/
theorem test_R272_jsl :
    view (fun t => (t.K, t.PC, t.S, t.read 0x0001FF#24, t.read 0x0001FE#24, t.read 0x0001FD#24)) (step ({ start false 0x00#8 0x12#8 0xFFFD#16 [(0x120000, 0x12), (0x12FFFD, 0x22), (0x12FFFE, 0x56), (0x12FFFF, 0x34)] with S := 0x01FF#16 })) =
      some (0x12#8, 0x3456#16, 0x01FC#16, 0x12#8, 0x00#8, 0x00#8) := by decide

/-- `45_jumps_calls.md R272`. -/
theorem test_R272_rtl :
    view (fun t => (t.K, t.PC, t.S)) (step ({ start true 0x30#8 0x00#8 0x8000#16 [(0x000200, 0xFF), (0x000201, 0x0F), (0x000202, 0x02), (0x008000, 0x6B)] with S := 0x01FF#16 })) =
      some (0x02#8, 0x1000#16, 0x0102#16) := by decide

/-- `45_jumps_calls.md R272`. -/
theorem test_R272_rts :
    view (fun t => (t.PC, t.S)) (step ({ start true 0x30#8 0x00#8 0x8000#16 [(0x000100, 0xFF), (0x000101, 0x0F), (0x008000, 0x60)] with S := 0x01FF#16 })) =
      some (0x1000#16, 0x0101#16) := by decide

/-- `46_software_interrupts.md R287`. -/
theorem test_R287_brk_native :
    view (fun t => (t.K, t.PC, t.S, t.P, t.read 0x0001FF#24, t.read 0x0001FE#24, t.read 0x0001FD#24, t.read 0x0001FC#24)) (step ({ start false 0x08#8 0x12#8 0x3456#16 [(0x00FFE6, 0xAB), (0x00FFE7, 0xCD), (0x123456, 0x00)] with S := 0x01FF#16 })) =
      some (0x00#8, 0xCDAB#16, 0x01FB#16, 0x04#8, 0x12#8, 0x34#8, 0x58#8, 0x08#8) := by decide

/-- `46_software_interrupts.md R287`. -/
theorem test_R287_brk_emulation :
    view (fun t => (t.K, t.PC, t.S, t.P, t.read 0x000101#24, t.read 0x000100#24, t.read 0x0001FF#24)) (step ({ start true 0x30#8 0x00#8 0x8000#16 [(0x008000, 0x00), (0x00FFFE, 0x00), (0x00FFFF, 0x90)] with S := 0x0101#16 })) =
      some (0x00#8, 0x9000#16, 0x01FE#16, 0x34#8, 0x80#8, 0x02#8, 0x30#8) := by decide

/-- `46_software_interrupts.md R287`. -/
theorem test_R287_cop_emulation :
    view (fun t => (t.PC, t.S, t.P, t.read 0x0001FF#24, t.read 0x0001FE#24, t.read 0x0001FD#24)) (step ({ start true 0x30#8 0x00#8 0xFFFF#16 [(0x000000, 0x12), (0x00FFF4, 0x00), (0x00FFF5, 0x80), (0x00FFFF, 0x02)] with S := 0x01FF#16 })) =
      some (0x8000#16, 0x01FC#16, 0x34#8, 0x00#8, 0x01#8, 0x30#8) := by decide

/-- `46_software_interrupts.md R287`. -/
theorem test_R287_rti_emulation :
    view (fun t => (t.K, t.PC, t.S, t.P)) (step ({ start true 0x30#8 0x00#8 0x8000#16 [(0x000100, 0x02), (0x000101, 0x80), (0x0001FF, 0x00), (0x008000, 0x40)] with S := 0x01FE#16 })) =
      some (0x00#8, 0x8002#16, 0x0101#16, 0x30#8) := by decide

/-- `47_flag_instr.md R301`. -/
theorem test_R301_clc :
    view (fun t => t.P) (step (start false 0xFF#8 0x00#8 0x8000#16 [(0x008000, 0x18)])) =
      some 0xFE#8 := by decide

/-- `47_flag_instr.md R301`. -/
theorem test_R301_cld :
    view (fun t => t.P) (step (start false 0xFF#8 0x00#8 0x8000#16 [(0x008000, 0xD8)])) =
      some 0xF7#8 := by decide

/-- `47_flag_instr.md R301`. -/
theorem test_R301_clv :
    view (fun t => t.P) (step (start false 0xFF#8 0x00#8 0x8000#16 [(0x008000, 0xB8)])) =
      some 0xBF#8 := by decide

/-- `47_flag_instr.md R301`. -/
theorem test_R301_sec :
    view (fun t => t.P) (step (start false 0x00#8 0x00#8 0x8000#16 [(0x008000, 0x38)])) =
      some 0x01#8 := by decide

/-- `47_flag_instr.md R301`. -/
theorem test_R301_sei :
    view (fun t => t.P) (step (start false 0x00#8 0x00#8 0x8000#16 [(0x008000, 0x78)])) =
      some 0x04#8 := by decide

/-- `47_flag_instr.md R301`. -/
theorem test_R301_rep_emulation :
    view (fun t => t.P) (step (start true 0xFF#8 0x00#8 0x8000#16 [(0x008000, 0xC2), (0x008001, 0xFF)])) =
      some 0x30#8 := by decide

/-- `41_compare_incdec.md R201`. -/
theorem test_R201_dex :
    view (fun t => (t.X, t.P)) (step ({ start false 0x10#8 0x00#8 0x8000#16 [(0x008000, 0xCA)] with X := 0x0000#16 })) =
      some (0x00FF#16, 0x90#8) := by decide

/-- `41_compare_incdec.md R201`. -/
theorem test_R201_iny :
    view (fun t => (t.Y, t.P)) (step ({ start false 0x10#8 0x00#8 0x8000#16 [(0x008000, 0xC8)] with Y := 0x007F#16 })) =
      some (0x0080#16, 0x90#8) := by decide

/-- `41_compare_incdec.md R201`. -/
theorem test_R201_inc_acc :
    view (fun t => (t.C, t.P)) (step ({ start false 0x20#8 0x00#8 0x8000#16 [(0x008000, 0x1A)] with C := 0x12FF#16 })) =
      some (0x1200#16, 0x22#8) := by decide

/-- `41_compare_incdec.md R201`. -/
theorem test_R201_dec_mem :
    view (fun t => (t.P, t.read 0x000010#24, t.read 0x000011#24)) (step (start false 0x00#8 0x00#8 0x8000#16 [(0x000010, 0x00), (0x000011, 0x01), (0x008000, 0xC6), (0x008001, 0x10)])) =
      some (0x00#8, 0xFF#8, 0x00#8) := by decide

/-- `43_shifts.md R238`. -/
theorem test_R238_asl_mem :
    view (fun t => (t.P, t.read 0x000010#24)) (step (start false 0x20#8 0x00#8 0x8000#16 [(0x000010, 0x8F), (0x008000, 0x06), (0x008001, 0x10)])) =
      some (0x21#8, 0x1E#8) := by decide

/-- `43_shifts.md R238`. -/
theorem test_R238_lsr_acc :
    view (fun t => (t.C, t.P)) (step ({ start false 0x20#8 0x00#8 0x8000#16 [(0x008000, 0x4A)] with C := 0xFF01#16 })) =
      some (0xFF00#16, 0x23#8) := by decide

/-- `43_shifts.md R238`. -/
theorem test_R238_rol_acc :
    view (fun t => (t.C, t.P)) (step ({ start false 0x01#8 0x00#8 0x8000#16 [(0x008000, 0x2A)] with C := 0x8000#16 })) =
      some (0x0001#16, 0x01#8) := by decide

/-- `42_logic_bit.md R218`. -/
theorem test_R218_and :
    view (fun t => (t.C, t.P)) (step ({ start false 0x00#8 0x00#8 0x8000#16 [(0x008000, 0x29), (0x008001, 0x03), (0x008002, 0xF1)] with C := 0x0F06#16 })) =
      some (0x0102#16, 0x00#8) := by decide

/-- `48_load_store.md R321`. -/
theorem test_R321_sta_long_x :
    view (fun t => (t.PC, t.read 0x000000#24, t.read 0x000001#24)) (step ({ start false 0x00#8 0x00#8 0x8000#16 [(0x008000, 0x9F), (0x008001, 0xFF), (0x008002, 0xFF), (0x008003, 0xFF)] with C := 0x1234#16, X := 0x0001#16 })) =
      some (0x8004#16, 0x34#8, 0x12#8) := by decide

/-- `48_load_store.md R321`. -/
theorem test_R321_ldx_abs_y :
    view (fun t => t.X) (step ({ start false 0x00#8 0x00#8 0x8000#16 [(0x008000, 0xBE), (0x008001, 0xFE), (0x008002, 0xFF), (0x130008, 0x78), (0x130009, 0x56)] with Y := 0x000A#16, DBR := 0x12#8 })) =
      some 0x5678#16 := by decide

/-- `48_load_store.md R321`. -/
theorem test_R321_stx_dir_y :
    view (fun t => (t.PC, t.read 0x000010#24)) (step ({ start true 0x30#8 0x00#8 0x8000#16 [(0x008000, 0x96), (0x008001, 0xF0)] with X := 0x0055#16, Y := 0x0020#16 })) =
      some (0x8002#16, 0x55#8) := by decide

/-- `48_load_store.md R321`. -/
theorem test_R321_lda_long :
    view (fun t => (t.C, t.P)) (step (start false 0x00#8 0x00#8 0x8000#16 [(0x008000, 0xAF), (0x008001, 0x56), (0x008002, 0x34), (0x008003, 0x12), (0x123456, 0xAB), (0x123457, 0xCD)])) =
      some (0xCDAB#16, 0x80#8) := by decide

/-- `49_block_move.md R338`. -/
theorem test_R338_mvn_one :
    view (fun t => (t.C, t.X, t.Y, t.DBR, t.PC, t.read 0x7F0020#24)) (step ({ start false 0x00#8 0x00#8 0x8000#16 [(0x008000, 0x54), (0x008001, 0x7F), (0x008002, 0x7E), (0x7E0010, 0x11)] with C := 0x0002#16, X := 0x0010#16, Y := 0x0020#16 })) =
      some (0x0001#16, 0x0011#16, 0x0021#16, 0x7F#8, 0x8000#16, 0x11#8) := by decide

/-- `49_block_move.md R338`. -/
theorem test_R338_mvn_last :
    view (fun t => (t.C, t.X, t.Y, t.DBR, t.PC, t.read 0x002000#24)) (step ({ start false 0x00#8 0x00#8 0x8000#16 [(0x001000, 0x5A), (0x008000, 0x54), (0x008001, 0x00), (0x008002, 0x00)] with C := 0x0000#16, X := 0x1000#16, Y := 0x2000#16, DBR := 0x7E#8 })) =
      some (0xFFFF#16, 0x1001#16, 0x2001#16, 0x00#8, 0x8003#16, 0x5A#8) := by decide

/-- `95_test_vectors.md V53`. -/
theorem test_V53_mvp_first :
    view (fun t => (t.C, t.X, t.Y, t.DBR, t.PC, t.read 0x7F0000#24)) (step ({ start false 0x00#8 0x00#8 0x8000#16 [(0x008000, 0x44), (0x008001, 0x7F), (0x008002, 0x7E), (0x7E0000, 0x99)] with C := 0x0001#16, X := 0x0000#16, Y := 0x0000#16 })) =
      some (0x0000#16, 0xFFFF#16, 0xFFFF#16, 0x7F#8, 0x8000#16, 0x99#8) := by decide

/-- `51_stack.md R370`. -/
theorem test_R370_pea :
    view (fun t => (t.S, t.read 0x000100#24, t.read 0x0000FF#24)) (step ({ start true 0x30#8 0x00#8 0x8000#16 [(0x008000, 0xF4), (0x008001, 0x34), (0x008002, 0x12)] with S := 0x0100#16 })) =
      some (0x01FE#16, 0x12#8, 0x34#8) := by decide

/-- `51_stack.md R370`. -/
theorem test_R370_pha :
    view (fun t => (t.S, t.read 0x000000#24, t.read 0x00FFFF#24)) (step ({ start false 0x00#8 0x00#8 0x8000#16 [(0x008000, 0x48)] with C := 0x12CD#16, S := 0x0000#16 })) =
      some (0xFFFE#16, 0x12#8, 0xCD#8) := by decide

/-- `51_stack.md R370`. -/
theorem test_R370_pla :
    view (fun t => (t.C, t.P, t.S)) (step ({ start true 0x30#8 0x00#8 0x8000#16 [(0x000100, 0x00), (0x000200, 0x55), (0x008000, 0x68)] with C := 0x1200#16, S := 0x01FF#16 })) =
      some (0x1200#16, 0x32#8, 0x0100#16) := by decide

/-- `51_stack.md R370`. -/
theorem test_R370_plx :
    view (fun t => (t.X, t.P, t.S)) (step ({ start true 0x30#8 0x00#8 0x8000#16 [(0x000100, 0x80), (0x008000, 0xFA)] with S := 0x01FF#16 })) =
      some (0x0080#16, 0xB0#8, 0x0100#16) := by decide

/-- `51_stack.md R370`. -/
theorem test_R370_phx :
    view (fun t => (t.S, t.read 0x0001FF#24, t.read 0x0001FE#24)) (step ({ start false 0x00#8 0x00#8 0x8000#16 [(0x008000, 0xDA)] with X := 0x1234#16, S := 0x01FF#16 })) =
      some (0x01FD#16, 0x12#8, 0x34#8) := by decide

/-- `51_stack.md R370`. -/
theorem test_R370_php :
    view (fun t => (t.S, t.read 0x000100#24)) (step ({ start true 0x30#8 0x00#8 0x8000#16 [(0x008000, 0x08)] with S := 0x0100#16 })) =
      some (0x01FF#16, 0x30#8) := by decide

/-- `51_stack.md R370`. -/
theorem test_R370_phb :
    view (fun t => (t.S, t.read 0x000100#24)) (step ({ start true 0x30#8 0x00#8 0x8000#16 [(0x008000, 0x8B)] with S := 0x0100#16, DBR := 0x7E#8 })) =
      some (0x01FF#16, 0x7E#8) := by decide

/-- `51_stack.md R370`. -/
theorem test_R370_phd :
    view (fun t => (t.S, t.read 0x000100#24, t.read 0x0000FF#24)) (step ({ start true 0x30#8 0x00#8 0x8000#16 [(0x008000, 0x0B)] with S := 0x0100#16, D := 0xCDAB#16 })) =
      some (0x01FE#16, 0xCD#8, 0xAB#8) := by decide

/-- `51_stack.md R370`. -/
theorem test_R370_pld :
    view (fun t => (t.D, t.P, t.S)) (step ({ start true 0x30#8 0x00#8 0x8000#16 [(0x000200, 0x00), (0x000201, 0x00), (0x008000, 0x2B)] with S := 0x01FF#16, D := 0x1234#16 })) =
      some (0x0000#16, 0x32#8, 0x0101#16) := by decide

/-- `51_stack.md R370`. -/
theorem test_R370_phk :
    view (fun t => (t.S, t.read 0x0001FF#24)) (step ({ start false 0x00#8 0x12#8 0x8000#16 [(0x128000, 0x4B)] with S := 0x01FF#16 })) =
      some (0x01FE#16, 0x12#8) := by decide

/-- `51_stack.md R355`. -/
theorem test_R355_ply :
    view (fun t => (t.Y, t.P, t.S)) (step ({ start false 0x10#8 0x00#8 0x8000#16 [(0x0001FF, 0x80), (0x008000, 0x7A)] with S := 0x01FE#16 })) =
      some (0x0080#16, 0x90#8, 0x01FF#16) := by decide

/-- `53_transfers.md R408`. -/
theorem test_R408_tax :
    view (fun t => (t.X, t.P)) (step ({ start false 0x10#8 0x00#8 0x8000#16 [(0x008000, 0xAA)] with C := 0x1280#16 })) =
      some (0x0080#16, 0x90#8) := by decide

/-- `53_transfers.md R408`. -/
theorem test_R408_txa :
    view (fun t => (t.C, t.P)) (step ({ start false 0x20#8 0x00#8 0x8000#16 [(0x008000, 0x8A)] with C := 0x1234#16, X := 0xABCD#16 })) =
      some (0x12CD#16, 0xA0#8) := by decide

/-- `53_transfers.md R408`. -/
theorem test_R408_txy :
    view (fun t => (t.Y, t.P)) (step ({ start false 0x00#8 0x00#8 0x8000#16 [(0x008000, 0x9B)] with X := 0x8000#16 })) =
      some (0x8000#16, 0x80#8) := by decide

/-- `53_transfers.md R408`. -/
theorem test_R408_tyx :
    view (fun t => (t.X, t.P)) (step ({ start false 0x10#8 0x00#8 0x8000#16 [(0x008000, 0xBB)] with Y := 0x0080#16 })) =
      some (0x0080#16, 0x90#8) := by decide

/-- `53_transfers.md R408`. -/
theorem test_R408_tdc :
    view (fun t => (t.C, t.P)) (step ({ start false 0x20#8 0x00#8 0x8000#16 [(0x008000, 0x7B)] with C := 0xFFFF#16, D := 0x1234#16 })) =
      some (0x1234#16, 0x20#8) := by decide

/-- `53_transfers.md R408`. -/
theorem test_R408_xce_native :
    view (fun t => (t.S, t.P, t.e)) (step ({ start true 0x30#8 0x00#8 0x8000#16 [(0x008000, 0xFB)] with S := 0x01CD#16 })) =
      some (0x01CD#16, 0x31#8, false) := by decide

/-- `40_adc_sbc.md R180`. -/
theorem test_R180_sbc_overflow :
    view (fun t => (t.C, t.P)) (step ({ start false 0x21#8 0x00#8 0x8000#16 [(0x008000, 0xE9), (0x008001, 0xFF)] with C := 0x557F#16 })) =
      some (0x5580#16, 0xE0#8) := by decide

/-- `95_test_vectors.md E34`. -/
theorem test_E34_lda_dir_ind_y :
    view (fun t => (t.C, t.P)) (step ({ start true 0x30#8 0x00#8 0x8000#16 [(0x008000, 0xB1), (0x008001, 0xFF), (0x00FF00, 0xFF), (0x00FFFF, 0xFE), (0x130008, 0x77)] with D := 0xFF00#16, Y := 0x000A#16, DBR := 0x12#8 })) =
      some (0x0077#16, 0x30#8) := by decide

/-- `95_test_vectors.md E31`. -/
theorem test_E31_lda_dir_long :
    view (fun t => (t.C, t.P)) (step ({ start false 0x00#8 0x00#8 0x8000#16 [(0x000000, 0x12), (0x008000, 0xA7), (0x008001, 0xFE), (0x00FFFE, 0xFF), (0x00FFFF, 0xFF), (0x12FFFF, 0x34), (0x130000, 0x56)] with D := 0xFF00#16 })) =
      some (0x5634#16, 0x00#8) := by decide

/-- `52_stp_wai.md R381`. -/
theorem test_R381_stp :
    view (fun t => (t.PC, t.run)) (step (start false 0x00#8 0x00#8 0x8000#16 [(0x008000, 0xDB)])) =
      some (0x8001#16, RunState.stopped) := by decide

/-- `52_stp_wai.md R383`. -/
theorem test_R383_wai :
    view (fun t => (t.PC, t.run)) (step (start true 0x34#8 0x00#8 0x8000#16 [(0x008000, 0xCB)])) =
      some (0x8001#16, RunState.waiting) := by decide

/-- `60_exceptions.md R455`. -/
theorem test_R455_nmi_emulation :
    view (fun t => (t.PC, t.S, t.P, t.read 0x000100#24, t.read 0x0001FF#24, t.read 0x0001FE#24)) (step ({ start true 0x34#8 0x00#8 0x8003#16 [(0x008003, 0xEA), (0x00FFFA, 0x00), (0x00FFFB, 0xA0)] with S := 0x0100#16, pending := { abort := false, irq := false, nmi := true, reset := false } })) =
      some (0xA000#16, 0x01FD#16, 0x34#8, 0x80#8, 0x03#8, 0x24#8) := by decide

/-- `60_exceptions.md R455`. -/
theorem test_R455_irq_emulation :
    view (fun t => (t.K, t.PC, t.S, t.P, t.read 0x0001FF#24, t.read 0x0001FE#24, t.read 0x0001FD#24)) (step ({ start true 0x30#8 0x12#8 0x8003#16 [(0x00FFFE, 0x00), (0x00FFFF, 0x90), (0x128003, 0xEA)] with S := 0x01FF#16, pending := { abort := false, irq := true, nmi := false, reset := false } })) =
      some (0x00#8, 0x9000#16, 0x01FC#16, 0x34#8, 0x80#8, 0x03#8, 0x20#8) := by decide

/-- `60_exceptions.md R455`. -/
theorem test_R455_nmi_before_irq :
    view (fun t => (t.PC, t.P)) (step ({ start false 0x00#8 0x00#8 0x8000#16 [(0x008000, 0xEA), (0x00FFEA, 0x00), (0x00FFEB, 0xA0), (0x00FFEE, 0x00), (0x00FFEF, 0x90)] with S := 0x01FF#16, pending := { abort := false, irq := true, nmi := true, reset := false } })) =
      some (0xA000#16, 0x04#8) := by decide
/-- `95_test_vectors.md V4`: the flags, whatever the free value of `v` is. -/
theorem test_V4_flags : ∀ v : Bool, adcDecimal .w16 0x9999#16 0x0001#16 false v =
    { result := 0x0000#16, n := false, v := v, z := true, c := true } := by decide

/-- `95_test_vectors.md V5`: the flags, whatever the free value of `v` is. -/
theorem test_V5_flags : ∀ v : Bool, sbcDecimal .w8 0x0000#16 0x0001#16 true v =
    { result := 0x0099#16, n := true, v := v, z := false, c := false } := by decide

/-- `40_adc_sbc.md R180`: decimal rows with a carry in. -/
theorem test_R180_decimal : ∀ v : Bool,
    (adcDecimal .w8 0x0019#16 0x0028#16 true v).result = 0x0048#16 ∧
    (sbcDecimal .w16 0x1000#16 0x0001#16 false v).result = 0x0998#16 ∧
    (sbcDecimal .w16 0x0001#16 0x2003#16 true v).result = 0x7998#16 := by decide

/-- `70_reset_and_hazards.md R479`: a pending RESET in native mode, running or stopped. -/
theorem test_R479_reset : ∀ run ∈ [RunState.running, RunState.stopped],
    view (fun t => (t.K, t.PC, t.e, t.D, t.DBR, t.run))
      (step { start false 0x00#8 0x12#8 0x3456#16 [(0x00FFFC, 0x00), (0x00FFFD, 0x80)] with
        D := 0x2000#16, DBR := 0x34#8, run := run,
        pending := { abort := false, irq := false, nmi := true, reset := true } }) =
      some (0x00#8, 0x8000#16, true, 0x0000#16, 0x00#8, RunState.running) := by decide

/-- `95_test_vectors.md P7`, steps 2 and 3: waiting with nothing pending, then woken by an IRQ with `i = 1`. -/
theorem test_P7_wait :
    view (fun t => (t.PC, t.run, t.pending.irq))
      (step { start false 0x34#8 0x00#8 0x8001#16 [] with
        run := .waiting, events := [{ abort := false, nmi := false, reset := false, irqLine := false }] }) =
      some (0x8001#16, RunState.waiting, false) ∧
    view (fun t => (t.PC, t.S, t.run, t.pending.irq))
      (step { start false 0x34#8 0x00#8 0x8001#16 [] with
        run := .waiting, events := [{ abort := false, nmi := false, reset := false, irqLine := true }] }) =
      some (0x8001#16, 0x01FF#16, RunState.running, true) := by decide

/-- `70_reset_and_hazards.md R475`, R479: cycles of LDA abs,X and of BNE. -/
theorem test_R479_cycles :
    cycles (.ldaAbsX 0x1234#16) { start true 0x30#8 0x00#8 0x8000#16 [] with X := 0x0000#16 } = 4 ∧
    cycles (.ldaAbsX 0x1234#16) { start true 0x30#8 0x00#8 0x8000#16 [] with X := 0x00FF#16 } = 5 ∧
    cycles (.ldaAbsX 0x1234#16) (start false 0x00#8 0x00#8 0x8000#16 []) = 6 ∧
    cycles (.bne 0x10#8) (start false 0x02#8 0x00#8 0x8000#16 []) = 2 ∧
    cycles (.bne 0x10#8) (start false 0x00#8 0x00#8 0x8000#16 []) = 3 ∧
    cycles (.bne 0x80#8) (start true 0x30#8 0x00#8 0x8000#16 []) = 4 ∧
    cycles (.ldaDir 0x10#8) { start true 0x30#8 0x00#8 0x8000#16 [] with D := 0x0000#16 } = 3 ∧
    cycles (.ldaDir 0x10#8) { start false 0x00#8 0x00#8 0x8000#16 [] with D := 0x0001#16 } = 5 := by decide

/-- A table word placed where `step` fetches is what the next step runs: `$AF $56 $34 $12` and `$DB`. -/
theorem test_withFetchWord :
    (State.reset.withFetchWord 32 0x123456AF).poll.fetch.value = .ldaLong 0x123456#24 ∧
    decodeTableWord 8 0x54 = some (.mvn 0x00#8 0x00#8) ∧
    view (fun t => (t.PC, t.run)) (step (State.reset.withFetchWord 8 0xDB)) = some (0x0001#16, RunState.stopped) := by decide

/-- A memory of the canonical form, and three that are not of it: not rising, holding what an unlisted byte reads as, beyond
`$FFFFFF`. -/
theorem test_memory_form :
    Memory.wf [(0x10, 0x01#8), (0xFFFFFF, 0x02#8)] = true ∧ Memory.wf [(0x11, 0x01#8), (0x10, 0x02#8)] = false ∧
    Memory.wf [(0x10, 0x00#8)] = false ∧ Memory.wf [(0x1000000, 0x01#8)] = false := by decide

/-- A platform with a device at `$002000` to `$0020FF` and ROM at `$00E000` to `$00FFFF`; all else is RAM. -/
def mapped : State :=
  { start false 0x20#8 0x00#8 0x8000#16 [(0x00E000, 0xEA)] with
    C := 0x0042#16
    regions := [{ first := 0x002000#24, last := 0x0020FF#24, kind := .device },
      { first := 0x00E000#24, last := 0x00FFFF#24, kind := .rom }] }

/-- The same platform in emulation mode, with a stack pointer. -/
def mappedOld (stack : Word) : State := { mapped with e := true, P := 0x30#8, S := stack }

/-- Each region ends where it says, and what is in none is RAM. -/
theorem test_kinds_at_the_ends_of_regions :
    mapped.kindAt 0x001FFF#24 = .ram ∧ mapped.kindAt 0x002000#24 = .device ∧ mapped.kindAt 0x0020FF#24 = .device ∧
    mapped.kindAt 0x002100#24 = .ram ∧ mapped.kindAt 0x00DFFF#24 = .ram ∧ mapped.kindAt 0x00E000#24 = .rom ∧
    mapped.kindAt 0x00FFFF#24 = .rom ∧ mapped.kindAt 0x010000#24 = .ram := by decide

/-- `20_memory.md R83`, `92_eei_decisions.md D3`: STA to RAM, to ROM and to a device. -/
theorem test_sta_by_kind :
    view (fun t => (t.read 0x001FFF#24, t.deviceLog)) (exec (.staAbs 0x1FFF#16) mapped) = some (0x42#8, []) ∧
    view (fun t => (t.read 0x00E000#24, t.deviceLog)) (exec (.staAbs 0xE000#16) mapped) = some (0xEA#8, []) ∧
    view (fun t => (t.mem, t.deviceLog)) (exec (.staAbs 0x2000#16) mapped) =
      some (mapped.mem, [(0, .write 0x002000#24 0x42#8)]) := by decide

/-- `20_memory.md R79`, `R87`, `92_eei_decisions.md D3`: a device answers what the platform says of all accesses so far, writes and
reads, so a second read of it need not answer as the first. -/
theorem test_read_device :
    mapped.read 0x002001#24 = Config.deviceByte [] 0 0x002001#24 ∧
    (mapped.write 0x002000#24 0x42#8).read 0x002001#24 =
      Config.deviceByte [(0, .write 0x002000#24 0x42#8)] 0 0x002001#24 ∧
    ((mapped.readByte 0x002001#24).after.readByte 0x002001#24).value =
      Config.deviceByte [(0, .read 0x002001#24)] 0 0x002001#24 :=
  ⟨rfl, rfl, rfl⟩

/-- The addresses of the accesses that devices have had, the first one first, each with whether it is a write. -/
def devicesSaw (t : State) : List (Bool × Nat) :=
  (t.deviceLog.map fun p =>
    match p.2 with
    | .read a => (false, a.toNat)
    | .write a _ => (true, a.toNat)).reverse

/-- `mapped` with 16-bit registers, and with the direct page and the stack in the device. -/
def deep : State := { mapped with P := 0x00#8, D := 0x2000#16, S := 0x2080#16 }

/-- `20_memory.md R80`: 16-bit data is read low, then high; all of it before any is written, low, then high. -/
theorem test_R80_data_order :
    view devicesSaw (exec (.ldaAbs 0x2010#16) deep) = some [(false, 0x2010), (false, 0x2011)] ∧
    view devicesSaw (exec (.staAbs 0x2010#16) deep) = some [(true, 0x2010), (true, 0x2011)] ∧
    view devicesSaw (exec (.incDir 0x10#8) deep) =
      some [(false, 0x2010), (false, 0x2011), (true, 0x2010), (true, 0x2011)] ∧
    view devicesSaw (exec (.ldaImm 0x2010#16) deep) = some [] := by decide

/-- `20_memory.md R80`: pointers are read low, middle, high; PEI reads its data before it pushes (`51_stack.md R347`) and
JSR (abs,X) pushes before it reads its pointer (`45_jumps_calls.md R268`). -/
theorem test_R80_pointer_order :
    view devicesSaw (exec (.jmpAbsInd 0x2010#16) deep) = some [(false, 0x2010), (false, 0x2011)] ∧
    view devicesSaw (exec (.jmpAbsLong 0x2010#16) deep) = some [(false, 0x2010), (false, 0x2011), (false, 0x2012)] ∧
    view devicesSaw (exec (.pei 0x10#8) deep) = some [(false, 0x2010), (false, 0x2011), (true, 0x2080), (true, 0x207F)] ∧
    view devicesSaw (exec (.jsrAbsXInd 0x2010#16) deep) =
      some [(true, 0x2080), (true, 0x207F), (false, 0x2010), (false, 0x2011)] := by decide

/-- `20_memory.md R80`: a pull reads the low byte first; RTL and RTI read the bank last; a block move reads, then writes. -/
theorem test_R80_pull_order :
    view devicesSaw (exec .pla deep) = some [(false, 0x2081), (false, 0x2082)] ∧
    view devicesSaw (exec .rtl deep) = some [(false, 0x2081), (false, 0x2082), (false, 0x2083)] ∧
    view devicesSaw (exec .rti deep) = some [(false, 0x2081), (false, 0x2082), (false, 0x2083), (false, 0x2084)] ∧
    view devicesSaw (exec (.mvn 0x00#8 0x00#8) { deep with X := 0x2001#16, Y := 0x2000#16 }) =
      some [(false, 0x2001), (true, 0x2000)] := by decide

/-- A state whose instruction's opcode is the last byte of RAM before the device. -/
def atDevice (opcode : Nat) : State := { deep with PC := 0x1FFF#16, mem := cells [(0x1FFF, opcode)] }

/-- `20_memory.md R87`, `46_software_interrupts.md R283`: of BRK the opcode alone is read, of COP and WDM the byte after it as well,
and an instruction of three bytes has its operand read low, then high. -/
theorem test_R87_fetch :
    devicesSaw (atDevice 0x00).fetch.after = [] ∧ (atDevice 0x00).fetch.value = .brk ∧
    devicesSaw (atDevice 0x02).fetch.after = [(false, 0x2000)] ∧ devicesSaw (atDevice 0x42).fetch.after = [(false, 0x2000)] ∧
    devicesSaw (atDevice 0xEA).fetch.after = [] ∧
    devicesSaw (atDevice 0xA9).fetch.after = [(false, 0x2000), (false, 0x2001)] ∧
    devicesSaw { atDevice 0xA9 with P := 0x20#8 }.fetch.after = [(false, 0x2000)] := by decide

/-! ### The hypotheses of each statement are met: one theorem for each, named after the statement -/

/-- The smallest and the largest immediate of each width. -/
theorem witness_DecodeOfEncode :
    (Instr.ldaImm 0x00FF#16).wf true true = true ∧ (Instr.ldaImm 0xFFFF#16).wf false true = true ∧
    (Instr.ldxImm 0x00FF#16).wf true true = true ∧ (Instr.ldxImm 0xFFFF#16).wf true false = true ∧
    Instr.nop.wf true true = true := by decide

theorem witness_EncodeOfDecode :
    decode true true [0xA9#8, 0x01#8, 0x0A#8] = .ok (.ldaImm 0x0001#16, [0x0A#8]) := by decide

/-- An instruction that is none of the twelve. -/
theorem witness_ImmediateLengths : ∀ v : Word,
    Instr.nop ∉ [Instr.oraImm v, .andImm v, .eorImm v, .adcImm v, .bitImm v, .ldaImm v, .cmpImm v, .sbcImm v,
      .ldyImm v, .ldxImm v, .cpyImm v, .cpxImm v] := by
  intro v; simp

theorem witness_MemoryIsExtensional :
    Memory.wf [(0x10, 0x01#8), (0xFFFFFF, 0x02#8)] = true ∧
    ∀ a : Addr, Memory.read [(0x10, 0x01#8), (0xFFFFFF, 0x02#8)] a.toNat =
      Memory.read [(0x10, 0x01#8), (0xFFFFFF, 0x02#8)] a.toNat := ⟨by decide, fun _ => rfl⟩

/-- Each kind of address, and a byte of RAM and one of ROM that are not the one stored. -/
theorem witness_StoresByKind :
    Memory.wf mapped.mem = true ∧ mapped.kindAt 0x000000#24 = .ram ∧ mapped.kindAt 0x00E000#24 = .rom ∧
    mapped.kindAt 0x0020FF#24 = .device ∧ (0x00E000#24 : Addr) ≠ 0x000000#24 := by decide

/-- An address that is no device's and one that is, at the ends of its region. -/
theorem witness_ReadsByKind :
    mapped.kindAt 0x001FFF#24 ≠ .device ∧ mapped.kindAt 0x00E000#24 ≠ .device ∧ mapped.kindAt 0x002000#24 = .device ∧
    mapped.kindAt 0x0020FF#24 = .device := by decide

/-- Wrapping in the page, and the two ways not to: `DL = $01`, and native mode. -/
theorem witness_DirectAddresses :
    ({ start true 0x30#8 0 0 [] with D := 0xFF00#16 }).DL = 0x00#8 ∧ (start true 0x30#8 0 0 []).e = true ∧
    ({ start true 0x30#8 0 0 [] with D := 0xFF01#16 }).DL ≠ 0x00#8 ∧ (start false 0x00#8 0 0 []).e = false := by decide

/-- The same two clauses for the pointers. -/
theorem witness_IndirectAddresses :
    (let s := { start true 0x30#8 0 0 [] with D := 0xFF00#16 }; s.e = true ∧ s.DL = 0x00#8) ∧
    (let s := { start true 0x30#8 0 0 [] with D := 0x0001#16 }; ¬ (s.e = true ∧ s.DL = 0x00#8)) ∧
    (let s := start false 0x00#8 0 0 []; ¬ (s.e = true ∧ s.DL = 0x00#8)) := by decide

/-- An old instruction in emulation mode; a new one there; an old one in native mode. -/
theorem witness_StackAddresses :
    ((start true 0x30#8 0 0 []).e = true ∧ Age.old = .old) ∧
    ¬ ((start true 0x30#8 0 0 []).e = true ∧ Age.new = .old) ∧
    ¬ ((start false 0x00#8 0 0 []).e = true ∧ Age.old = .old) := by decide

theorem witness_StepRunsDecoded :
    let s := start false 0x00#8 0x12#8 0xFFFF#16 [(0x12FFFF, 0xC2), (0x120000, 0x20)]
    s.poll.action = .execute ∧ decode s.poll.m s.poll.x (s.poll.codeBytes 2) = .ok (.rep 0x20#8, []) := by decide

/-- BRK, COP and WDM at `K:PC`. -/
theorem witness_FetchReadsTheInstruction :
    (start false 0x00#8 0x12#8 0xFFFF#16 []).read (addr 0x12#8 0xFFFF#16) = 0x00#8 ∧
    (start false 0x00#8 0x12#8 0xFFFF#16 [(0x12FFFF, 0x02)]).read (addr 0x12#8 0xFFFF#16) = 0x02#8 ∧
    (start false 0x00#8 0x12#8 0xFFFF#16 [(0x12FFFF, 0x42)]).read (addr 0x12#8 0xFFFF#16) = 0x42#8 := by decide

/-- No entry left, and one entry that makes every request. -/
theorem witness_PollTakesOneEvent :
    (start false 0x00#8 0 0 []).events = [] ∧
    ({ start false 0x00#8 0 0 [] with
      events := [{ abort := true, nmi := true, reset := true, irqLine := true }] }).events =
      { abort := true, nmi := true, reset := true, irqLine := true } :: [] := by decide

/-- A machine with given requests, `i` and `run`. -/
def asked (p : Byte) (run : RunState) (abort irq nmi reset : Bool) : State :=
  { start false p 0 0 [] with run := run, pending := { abort := abort, irq := irq, nmi := nmi, reset := reset } }

/-- All requests at once; each interrupt with all that come after it. The clauses without an interrupt have the theorem after
this one. -/
theorem witness_RequestsComeFirst :
    (asked 0x00#8 .waiting true true true true).poll.pending.reset = true ∧
    (asked 0x00#8 .waiting true true true true).poll.run ≠ .stopped ∧
    Takes (asked 0x00#8 .running true true true false).poll .abort ∧
    Takes (asked 0x00#8 .waiting false true true false).poll .nmi ∧
    Takes (asked 0x00#8 .running false true false false).poll .irq ∧
    (asked 0x04#8 .waiting false true false false).poll.pending.irq = true ∧
    (asked 0x00#8 .waiting false false false false).poll.pending.irq = false := by decide

theorem witness_RequestsComeFirst_none :
    ∀ s ∈ [asked 0x04#8 .running false true false false, asked 0x00#8 .running false false false false,
        asked 0x04#8 .waiting false true false false, asked 0x00#8 .waiting false false false false],
      s.poll.run ≠ .stopped ∧ s.poll.pending.reset = false ∧ ∀ k, ¬ Takes s.poll k := by
  intro s hs
  simp only [List.mem_cons, List.not_mem_nil, or_false] at hs
  rcases hs with rfl | rfl | rfl | rfl <;> refine ⟨by decide, by decide, fun k => ?_⟩ <;> cases k <;> decide

theorem witness_StoppedUntilReset :
    (asked 0x00#8 .stopped true true true true).run = .stopped ∧
    (asked 0x00#8 .stopped true true true true).poll.pending.reset = true ∧
    (asked 0x00#8 .stopped true true true false).poll.pending.reset = false := by decide

/-- Native mode at the last byte of a bank; emulation mode with the stack at the bottom of page 1. -/
theorem witness_BrkTakesItsInterrupt :
    (let s := start false 0x08#8 0x12#8 0xFFFF#16 [(0x12FFFF, 0x00)]; Memory.wf s.mem = true ∧ s.e = false) ∧
    (let s := { start true 0x30#8 0 0 [(0x00FFFE, 0x34)] with S := 0x0100#16 }; Memory.wf s.mem = true ∧ s.e = true) := by
  decide

theorem witness_CopTakesItsInterrupt :
    (let s := start false 0x08#8 0x12#8 0xFFFF#16 [(0x12FFFF, 0x02)]; Memory.wf s.mem = true ∧ s.e = false) ∧
    (let s := { start true 0x30#8 0 0 [(0x00FFF4, 0x34)] with S := 0x0101#16 }; Memory.wf s.mem = true ∧ s.e = true) := by
  decide

/-- The three interrupts, in native and in emulation mode. -/
theorem witness_HardwareInterruptsEnter :
    ∀ s ∈ [asked 0x00#8 .running true false false false, { asked 0x30#8 .running true false false false with e := true }],
      Memory.wf s.mem = true ∧ Takes s.poll .abort ∧
      Takes ({ s with pending := { abort := false, irq := true, nmi := true, reset := false } }).poll .nmi ∧
      Takes ({ s with pending := { abort := false, irq := true, nmi := false, reset := false } }).poll .irq := by decide

theorem witness_RtiReturns : (start false 0x00#8 0 0 []).e = false ∧ (start true 0x30#8 0 0 []).e = true := by decide

/-- The invariant in native mode with 16-bit registers and in emulation mode, with the frame in RAM, wrapped at `$0000` and in
page 1, and a byte outside it that is no device's. -/
theorem witness_RtiUndoesEntry :
    (let s := { start false 0x00#8 0x12#8 0 [] with X := 0x1234#16, S := 0x0002#16 };
      Inv s ∧ s.e = false ∧ ∀ a ∈ s.frameAddrs, s.kindAt a = .ram) ∧
    (let s := mappedOld 0x0101#16;
      Inv s ∧ s.e = true ∧ (∀ a ∈ s.frameAddrs, s.kindAt a = .ram) ∧
      0x0001FE#24 ∉ s.frameAddrs ∧ s.kindAt 0x0001FE#24 ≠ .device) := by
  have h : (mappedOld 0x0101#16).frameAddrs = [0x000101#24, 0x000100#24, 0x0001FF#24] := by decide
  refine ⟨⟨by decide, rfl, fun _ _ => rfl⟩, by decide, rfl, ?_, ?_, by decide⟩ <;> rw [h]
  · simp only [List.forall_mem_cons, List.not_mem_nil, false_imp_iff, implies_true, and_true]; decide
  · decide

theorem witness_ResetStep : (asked 0x00#8 .stopped false false true true).poll.pending.reset = true := by decide

/-- The invariant, and a step from it: XCE into emulation mode. -/
theorem witness_StepKeepsInv :
    let s := { start false 0x01#8 0 0x8000#16 [(0x8000, 0xFB)] with X := 0x1234#16, S := 0x1234#16 }
    Inv s ∧ view (fun t => (t.e, t.X, t.S)) (step s) = some (true, 0x0034#16, 0x0134#16) := by decide

/-- A step that stores to ROM, and one that stores to a device. -/
theorem witness_OnlyRamChanges :
    Memory.wf mapped.mem = true ∧ mapped.kindAt 0x00E000#24 = .rom ∧
    view (fun t => t.PC) (step { mapped with mem := cells [(0x8000, 0x8D), (0x8001, 0x00), (0x8002, 0xE0)] }) = some 0x8003#16 ∧
    view (fun t => t.deviceLog) (step { mapped with mem := cells [(0x8000, 0x8D), (0x8001, 0x00), (0x8002, 0x20)] }) =
      some [(1, .write 0x002000#24 0x42#8)] := by decide

/-- XCE changes `e`, and so does a step of it. -/
theorem witness_EmulationFlagWriters :
    view (fun t => t.e) (exec .xce (start false 0x01#8 0 0 [])) = some true ∧
    view (fun t => t.e) (step (start false 0x01#8 0 0x8000#16 [(0x8000, 0xFB)])) = some true ∧
    (start false 0x01#8 0 0x8000#16 [(0x8000, 0xFB)]).e = false := by decide

/-- PLB changes `DBR`, TCD changes `D`. -/
theorem witness_DataBankAndDirectWriters :
    view (fun t => t.DBR) (exec .plb (start false 0x00#8 0 0 [(0x0200, 0x7E)])) = some 0x7E#8 ∧
    view (fun t => t.D) (exec .tcd { start false 0x00#8 0 0 [] with C := 0x1234#16 }) = some 0x1234#16 ∧
    (start false 0x00#8 0 0 []).DBR = 0x00#8 ∧ (start false 0x00#8 0 0 []).D = 0x0000#16 := by decide

/-- JMP long and RTI in native mode change `K`. -/
theorem witness_ProgramBankWriters :
    view (fun t => t.K) (exec (.jmpLong 0x123456#24) (start false 0x00#8 0 0 [])) = some 0x12#8 ∧
    view (fun t => t.K) (exec .rti (start false 0x00#8 0 0 [(0x0203, 0x12)])) = some 0x12#8 ∧
    (start false 0x00#8 0 0 []).K = 0x00#8 := by decide

/-- JMP abs does not leave `PC` three further on. -/
theorem witness_ProgramCounterAdvances :
    view (fun t => decide (t.PC.toNat ≠ (0x8000 + instrLen false false (.jmpAbs 0x1234#16)) % 65536))
      (exec (.jmpAbs 0x1234#16) (start false 0x00#8 0 0x8000#16 [])) = some true := by decide

/-- `d = 0`; `d = 1` with the largest BCD operands of both widths; a digit `$A` is outside. -/
theorem witness_AdcAdds :
    (start false 0x00#8 0 0 []).d = false ∧
    (let s := { start false 0x08#8 0 0 [] with C := 0x9999#16 }
     s.d = true ∧ bcdDigits (s.mBits / 4) s.accNat = true ∧
       bcdDigits (s.mBits / 4) ((Operand.imm 0x9999#16).val s) = true) ∧
    (let s := { start false 0x28#8 0 0 [] with C := 0xAB99#16 }
     s.d = true ∧ bcdDigits (s.mBits / 4) s.accNat = true ∧
       bcdDigits (s.mBits / 4) ((Operand.imm 0x0099#16).val s) = true) ∧
    bcdDigits 2 0x9A = false := by decide

theorem witness_SbcSubtracts :
    (start false 0x00#8 0 0 []).d = false ∧
    (let s := { start false 0x08#8 0 0 [] with C := 0x0000#16 }
     s.d = true ∧ bcdDigits (s.mBits / 4) s.accNat = true ∧
       bcdDigits (s.mBits / 4) ((Operand.imm 0x9999#16).val s) = true) ∧
    (let s := { start false 0x28#8 0 0 [] with C := 0xAB00#16 }
     s.d = true ∧ bcdDigits (s.mBits / 4) s.accNat = true ∧
       bcdDigits (s.mBits / 4) ((Operand.mem (.dir 0x10#8)).val s) = true) := by decide

/-- A state with data in the direct page, where every storing form may run. -/
def stored (e : Bool) (p : Byte) : State := start e p 0x00#8 0x8000#16 [(0x000010, 0xFF), (0x000011, 0x7F)]

theorem witness_IncDecMemory : Memory.wf (stored false 0x00#8).mem = true := by decide

theorem witness_TrbTsbStore : Memory.wf (stored false 0x00#8).mem = true ∧ Memory.wf (stored true 0x30#8).mem = true := by
  decide

theorem witness_ShiftsOfMemory : Memory.wf (stored true 0x31#8).mem = true := by decide

theorem witness_StoresStore : Memory.wf (stored false 0x30#8).mem = true := by decide

/-- Taken and not taken, for each condition. -/
theorem witness_BranchesFollowFlags :
    (start false 0x00#8 0 0 []).c = false ∧ (start false 0x01#8 0 0 []).c = true ∧
    (start false 0x00#8 0 0 []).z = false ∧ (start false 0x02#8 0 0 []).z = true ∧
    (start false 0x00#8 0 0 []).n = false ∧ (start false 0x80#8 0 0 []).n = true ∧
    (start false 0x00#8 0 0 []).v = false ∧ (start false 0x40#8 0 0 []).v = true := by decide

theorem witness_CallsPushAndJump : Memory.wf (stored true 0x30#8).mem = true ∧ Memory.wf (stored false 0x00#8).mem = true := by
  decide

/-- Native mode, and emulation mode with `SL` at its least value for JSL; JSR at the bottom of page 1. -/
theorem witness_ReturnUndoesCall :
    (let s := { start false 0x00#8 0x12#8 0 [] with S := 0x0000#16 };
      Inv s ∧ (s.e = false ∨ 3 ≤ s.SL.toNat) ∧ ∀ b ∈ [addr 0 s.S, addr 0 (s.S - 1), addr 0 (s.S - 2)], s.kindAt b = .ram) ∧
    (let s := mappedOld 0x0103#16;
      Inv s ∧ (s.e = false ∨ 3 ≤ s.SL.toNat) ∧ ∀ b ∈ [addr 0 s.S, addr 0 (s.S - 1), addr 0 (s.S - 2)], s.kindAt b = .ram) ∧
    (let s := mappedOld 0x0100#16; Inv s ∧ ∀ a ∈ [s.stackAddr .old 0, s.stackAddr .old (-1)], s.kindAt a = .ram) := by
  refine ⟨⟨by decide, .inl rfl, fun _ _ => rfl⟩, ⟨by decide, .inr (by decide), ?_⟩, by decide, ?_⟩ <;>
    simp only [List.forall_mem_cons, List.not_mem_nil, false_imp_iff, implies_true, and_true] <;> decide

theorem witness_BlockMoveMovesOneByte : Memory.wf (stored false 0x00#8).mem = true := by decide

/-- One byte and `2^16` bytes, with 16-bit and with 8-bit index registers. -/
theorem witness_BlockMoveMovesWholeBlock :
    (let s := { stored false 0x00#8 with C := 0x0000#16 }; Inv s ∧ s.x = false ∧ 0 ≤ s.C.toNat) ∧
    (let s := { stored false 0x10#8 with C := 0xFFFF#16 }; Inv s ∧ s.x = true ∧ 65535 ≤ s.C.toNat) := by decide

/-- The same, for the clause about the bytes moved: MVN from ROM to RAM across banks with 16-bit index registers, and in one bank,
overlapping, with 8-bit ones, where the addresses wrap in page 0. -/
theorem witness_BlockMoveMovesWholeBlock_contents :
    (let s := { mapped with P := 0x20#8, X := 0xE000#16, Y := 0xFFFF#16, C := 0x0002#16 };
      Inv s ∧ (∀ k, k ≤ s.C.toNat → ∀ j, j < k →
        addr 0x01#8 (indexKept s.x (s.Y + 1 * BitVec.ofNat 16 j)) ≠ addr 0x00#8 (indexKept s.x (s.X + 1 * BitVec.ofNat 16 k))) ∧
      ∀ k, k ≤ s.C.toNat → s.kindAt (addr 0x01#8 (indexKept s.x (s.Y + 1 * BitVec.ofNat 16 k))) ≠ .device ∧
        s.kindAt (addr 0x00#8 (indexKept s.x (s.X + 1 * BitVec.ofNat 16 k))) ≠ .device) ∧
    (let s := { mapped with P := 0x30#8, X := 0x00FF#16, Y := 0x00FE#16, C := 0x0003#16 };
      Inv s ∧ (∀ k, k ≤ s.C.toNat → ∀ j, j < k →
        addr 0x00#8 (indexKept s.x (s.Y + 1 * BitVec.ofNat 16 j)) ≠ addr 0x00#8 (indexKept s.x (s.X + 1 * BitVec.ofNat 16 k))) ∧
      ∀ k, k ≤ s.C.toNat → s.kindAt (addr 0x00#8 (indexKept s.x (s.Y + 1 * BitVec.ofNat 16 k))) ≠ .device ∧
        s.kindAt (addr 0x00#8 (indexKept s.x (s.X + 1 * BitVec.ofNat 16 k))) ≠ .device) := by decide

/-- Narrow and wide registers, in both modes. -/
theorem witness_PushesPush :
    Memory.wf (stored false 0x00#8).mem = true ∧ (stored false 0x00#8).m = false ∧ (stored false 0x00#8).x = false ∧
    Memory.wf (stored true 0x30#8).mem = true ∧ (stored true 0x30#8).m = true ∧ (stored true 0x30#8).x = true := by decide

/-- PLA completes with `m = 1`, and `B` is there to be kept. -/
theorem witness_PullsPull :
    view (fun t => t.C) (exec .pla { stored true 0x30#8 with C := 0x1234#16 }) = some 0x1200#16 ∧
    (stored true 0x30#8).m = true := by decide

end Sys2Proof.Tests
end

section
/-! The memory a step leaves (`00_scope.md` R7, R15, `20_memory.md` R79, R83, R87): the four fields that accesses look at and change,
what it is for a state to be another one but for accesses and registers, each shared operation and each instruction shape read that
way, and what follows for `exec` and `step`. -/

namespace Sys2Proof.Machine

/-! ### The part of the state that accesses look at and change -/

/-- What accesses look at and change: the contents of memory, the map of kinds, and what devices have had and when. -/
def State.bus (s : State) : Memory × List Region × List (Nat × Access) × Nat := (s.mem, s.regions, s.deviceLog, s.deviceTime)

theorem bus_eq_iff {s t : State} :
    t.bus = s.bus ↔ t.mem = s.mem ∧ t.regions = s.regions ∧ t.deviceLog = s.deviceLog ∧ t.deviceTime = s.deviceTime := by
  simp [State.bus]

theorem read_eq_of_bus {s t : State} (h : t.bus = s.bus) (a : Addr) : t.read a = s.read a := by
  obtain ⟨hmem, hregions, hlog, htime⟩ := bus_eq_iff.1 h
  exact State.read_congr hregions hlog htime hmem a

/-- What a read leaves depends on the bus it finds. -/
theorem readByte_bus_congr {s t : State} (h : t.bus = s.bus) (a : Addr) : (t.readByte a).after.bus = (s.readByte a).after.bus := by
  obtain ⟨hmem, hregions, hlog, htime⟩ := bus_eq_iff.1 h
  simp only [State.bus, State.readByte, State.note, State.setDeviceLog, State.kindAt_congr hregions, hmem, hregions, hlog, htime]

/-- What a store leaves depends on the bus it finds. -/
theorem write_bus_congr {s t : State} (h : t.bus = s.bus) (a : Addr) (v : Byte) : (t.write a v).bus = (s.write a v).bus := by
  obtain ⟨hmem, hregions, hlog, htime⟩ := bus_eq_iff.1 h
  simp only [State.bus, State.write_eq, State.setDeviceLog, State.setMem, State.kindAt_congr hregions, hmem, hregions, hlog, htime]

/-- What accesses leave depends on the bus they find, so registers may change before or after them. -/
theorem perform_bus_congr {s t : State} (h : t.bus = s.bus) (l : List Access) : (t.perform l).bus = (s.perform l).bus := by
  induction l generalizing s t with
  | nil => exact h
  | cons x l ih =>
    cases x with
    | read a => exact ih (readByte_bus_congr h a)
    | write a v => exact ih (write_bus_congr h a v)

/-! ### The bus under the operations on registers -/

@[simp] theorem bus_setC (s : State) (v : Word) : (s.setC v).bus = s.bus := rfl
@[simp] theorem bus_setDBR (s : State) (v : Byte) : (s.setDBR v).bus = s.bus := rfl
@[simp] theorem bus_setD (s : State) (v : Word) : (s.setD v).bus = s.bus := rfl
@[simp] theorem bus_setK (s : State) (v : Byte) : (s.setK v).bus = s.bus := rfl
@[simp] theorem bus_setPC (s : State) (v : Word) : (s.setPC v).bus = s.bus := rfl
@[simp] theorem bus_setRun (s : State) (r : RunState) : (s.setRun r).bus = s.bus := rfl
@[simp] theorem bus_setPending (s : State) (r : Requests) : (s.setPending r).bus = s.bus := rfl
@[simp] theorem bus_setFreeCount (s : State) (k : Nat) : (s.setFreeCount k).bus = s.bus := rfl
@[simp] theorem bus_setX (s : State) (w : Word) : (s.setX w).bus = s.bus := rfl
@[simp] theorem bus_setY (s : State) (w : Word) : (s.setY w).bus = s.bus := rfl
@[simp] theorem bus_setS (s : State) (w : Word) : (s.setS w).bus = s.bus := rfl
@[simp] theorem bus_setP (s : State) (p : Byte) : (s.setP p).bus = s.bus := rfl
@[simp] theorem bus_setE (s : State) (b : Bool) : (s.setE b).bus = s.bus := rfl
@[simp] theorem bus_setN (s : State) (b : Bool) : (s.setN b).bus = s.bus := rfl
@[simp] theorem bus_setV (s : State) (b : Bool) : (s.setV b).bus = s.bus := rfl
@[simp] theorem bus_setDec (s : State) (b : Bool) : (s.setDec b).bus = s.bus := rfl
@[simp] theorem bus_setI (s : State) (b : Bool) : (s.setI b).bus = s.bus := rfl
@[simp] theorem bus_setZ (s : State) (b : Bool) : (s.setZ b).bus = s.bus := rfl
@[simp] theorem bus_setCarry (s : State) (b : Bool) : (s.setCarry b).bus = s.bus := rfl
@[simp] theorem bus_advance (s : State) (len : Word) : (s.advance len).bus = s.bus := rfl
@[simp] theorem bus_moveS (s : State) (k : Word) : (s.moveS k).bus = s.bus := rfl
@[simp] theorem bus_setAcc (s : State) (v : Word) : (s.setAcc v).bus = s.bus := rfl
@[simp] theorem bus_setNZ (s : State) (w : Width) (v : Word) : (s.setNZ w v).bus = s.bus := by simp [State.setNZ]
@[simp] theorem bus_putAccNZ (s : State) (v : Word) : (s.putAccNZ v).bus = s.bus := by simp [State.putAccNZ]
@[simp] theorem bus_putArith (s : State) (r : Arith) : (s.putArith r).bus = s.bus := by simp [State.putArith]
@[simp] theorem bus_compare (s : State) (w : Width) (reg data : Word) : (s.compare w reg data).bus = s.bus := by
  simp [State.compare]
@[simp] theorem bus_shiftFlags (s : State) (w : Width) (r : Word × Bool) : (s.shiftFlags w r).bus = s.bus := by
  simp [State.shiftFlags]
@[simp] theorem bus_jumpLong (s : State) (a : Addr) : (s.jumpLong a).bus = s.bus := by simp [State.jumpLong]

/-! The operations on data: arithmetic, compares, logic, bit tests, loads. -/

@[simp] theorem bus_adc (s : State) (data : Word) : (s.adc data).bus = s.bus := by
  unfold State.adc; split_ifs <;> simp
@[simp] theorem bus_sbc (s : State) (data : Word) : (s.sbc data).bus = s.bus := by
  unfold State.sbc; split_ifs <;> simp
@[simp] theorem bus_cmp (s : State) (data : Word) : (s.cmp data).bus = s.bus := bus_compare _ _ _ _
@[simp] theorem bus_cpx (s : State) (data : Word) : (s.cpx data).bus = s.bus := bus_compare _ _ _ _
@[simp] theorem bus_cpy (s : State) (data : Word) : (s.cpy data).bus = s.bus := bus_compare _ _ _ _
@[simp] theorem bus_andData (s : State) (data : Word) : (s.andData data).bus = s.bus := bus_putAccNZ _ _
@[simp] theorem bus_eorData (s : State) (data : Word) : (s.eorData data).bus = s.bus := bus_putAccNZ _ _
@[simp] theorem bus_oraData (s : State) (data : Word) : (s.oraData data).bus = s.bus := bus_putAccNZ _ _
@[simp] theorem bus_lda (s : State) (data : Word) : (s.lda data).bus = s.bus := bus_putAccNZ _ _
@[simp] theorem bus_testBits (s : State) (data : Word) : (s.testBits data).bus = s.bus := bus_setZ _ _
@[simp] theorem bus_bitData (s : State) (data : Word) : (s.bitData data).bus = s.bus := by simp [State.bitData]
@[simp] theorem bus_ldx (s : State) (data : Word) : (s.ldx data).bus = s.bus := by simp [State.ldx]
@[simp] theorem bus_ldy (s : State) (data : Word) : (s.ldy data).bus = s.bus := by simp [State.ldy]

/-! ### States that differ by accesses and registers -/

/-- From `s` to `t` accesses have been made, and registers may have changed. -/
def Accessed (s t : State) : Prop := ∃ l : List Access, t.bus = (s.perform l).bus

theorem Accessed.perform (s : State) (l : List Access) : Accessed s (s.perform l) := ⟨l, rfl⟩

/-- Registers alone have changed. -/
theorem Accessed.of_bus_eq {s t : State} (h : t.bus = s.bus) : Accessed s t := ⟨[], h⟩

theorem Accessed.refl (s : State) : Accessed s s := .of_bus_eq rfl

theorem Accessed.trans {s t u : State} (h : Accessed s t) (h' : Accessed t u) : Accessed s u := by
  obtain ⟨l, hl⟩ := h
  obtain ⟨l', hl'⟩ := h'
  exact ⟨l ++ l', by rw [hl', perform_bus_congr hl, State.perform_append]⟩

/-- Accesses, then a change of registers. -/
theorem Accessed.then_registers {s t u : State} (h : Accessed s t) (e : u.bus = t.bus) : Accessed s u :=
  h.trans (.of_bus_eq e)

/-- Accesses move no region (log 5). -/
theorem Accessed.regions_eq {s t : State} (h : Accessed s t) : t.regions = s.regions := by
  obtain ⟨l, hl⟩ := h
  obtain ⟨-, hregions, -, -⟩ := bus_eq_iff.1 hl
  rw [hregions, State.perform_regions]

/-- Accesses are all made in the step they belong to (log 24). -/
theorem Accessed.deviceTime_eq {s t : State} (h : Accessed s t) : t.deviceTime = s.deviceTime := by
  obtain ⟨l, hl⟩ := h
  obtain ⟨-, -, -, htime⟩ := bus_eq_iff.1 hl
  rw [htime, State.perform_deviceTime]

/-- Accesses leave every byte of ROM (R79, R83). -/
theorem Accessed.read_rom {s t : State} (h : Accessed s t) (hwf : Memory.wf s.mem = true) {a : Addr} (hk : s.kindAt a = .rom) :
    t.read a = s.read a := by
  obtain ⟨l, hl⟩ := h
  rw [read_eq_of_bus hl, State.read_perform_rom hwf hk]

/-- What accesses add to those that devices have had are accesses of devices' addresses, with the number of the step (R87). -/
theorem Accessed.deviceLog_eq {s t : State} (h : Accessed s t) :
    ∃ l, t.deviceLog = l ++ s.deviceLog ∧ ∀ p ∈ l, p.1 = s.deviceTime ∧ s.kindAt p.2.addr = .device := by
  obtain ⟨l, hl⟩ := h
  obtain ⟨-, -, hlog, -⟩ := bus_eq_iff.1 hl
  refine ⟨_, hlog.trans (State.perform_deviceLog s l), ?_⟩
  simp only [List.mem_reverse, List.mem_map, List.mem_filter, decide_eq_true_eq]
  rintro _ ⟨x, ⟨-, hx⟩, rfl⟩
  exact ⟨rfl, hx⟩

/-! ### The operations over memory and the stack as accesses -/

theorem readByte_accessed (s : State) (a : Addr) : Accessed s (s.readByte a).after := .perform s (readsAt [a])

theorem read16_accessed (s : State) (ea : DataAddr) : Accessed s (s.read16 ea).after := .perform s (readsAt [ea.lo, ea.hi])

theorem read24_accessed (s : State) (ea : DataAddr) (top : Addr) : Accessed s (s.read24 ea top).after :=
  .perform s (readsAt [ea.lo, ea.hi, top])

theorem readData_accessed (s : State) (w : Width) (ea : DataAddr) : Accessed s (s.readData w ea).after := by
  cases w
  · exact readByte_accessed s ea.lo
  · exact read16_accessed s ea

theorem writeData_accessed (s : State) (w : Width) (ea : DataAddr) (v : Word) : Accessed s (s.writeData w ea v) := by
  rw [writeData_eq]; exact .perform s _

theorem throughPointer_accessed (s : State) (pointer : DataAddr) (idx : Word) : Accessed s (s.throughPointer pointer idx).after :=
  read16_accessed s pointer

theorem throughLongPointer_accessed (s : State) (ll : Byte) (idx : Word) : Accessed s (s.throughLongPointer ll idx).after :=
  read24_accessed s _ _

theorem absPointer_accessed (s : State) (hhll : Word) : Accessed s (s.absPointer hhll).after := read16_accessed s _

theorem absXPointer_accessed (s : State) (hhll : Word) : Accessed s (s.absXPointer hhll).after := read16_accessed s _

theorem absLongPointer_accessed (s : State) (hhll : Word) : Accessed s (s.absLongPointer hhll).after := read24_accessed s _ _

theorem push8_accessed (s : State) (age : Age) (v : Byte) : Accessed s (s.push8 age v) :=
  (Accessed.perform s [.write (s.stackAddr age 0) v]).then_registers (bus_moveS _ _)

theorem push16_accessed (s : State) (age : Age) (v : Word) : Accessed s (s.push16 age v) :=
  (Accessed.perform s [.write (s.stackAddr age 0) (hi8 v), .write (s.stackAddr age (-1)) (lo8 v)]).then_registers (bus_moveS _ _)

theorem push24_accessed (s : State) (age : Age) (b : Byte) (v : Word) : Accessed s (s.push24 age b v) :=
  (Accessed.perform s [.write (s.stackAddr age 0) b, .write (s.stackAddr age (-1)) (hi8 v),
    .write (s.stackAddr age (-2)) (lo8 v)]).then_registers (bus_moveS _ _)

theorem pushWidth_accessed (s : State) (age : Age) (w : Width) (v : Word) : Accessed s (s.pushWidth age w v) := by
  cases w
  · exact push8_accessed s age (lo8 v)
  · exact push16_accessed s age v

theorem pull8_accessed (s : State) (age : Age) : Accessed s (s.pull8 age).after :=
  (readByte_accessed s _).then_registers (bus_moveS _ _)

theorem pull16_accessed (s : State) (age : Age) : Accessed s (s.pull16 age).after :=
  (read16_accessed s _).then_registers (bus_moveS _ _)

theorem pull24_accessed (s : State) (age : Age) : Accessed s (s.pull24 age).after :=
  (read24_accessed s _ _).then_registers (bus_moveS _ _)

theorem pullWidth_accessed (s : State) (age : Age) (w : Width) : Accessed s (s.pullWidth age w).after := by
  cases w
  · exact pull8_accessed s age
  · exact pull16_accessed s age

/-! ### The sequences and the fetch as accesses -/

theorem enterInterrupt_accessed (s : State) (k : Interrupt) (ret : Word) : Accessed s (s.enterInterrupt k ret) := by
  rw [enterInterrupt_eq]
  exact (Accessed.perform s (s.entryAccesses k ret)).then_registers (by simp)

theorem leaveInterrupt_accessed (s : State) : Accessed s s.leaveInterrupt := by
  refine (Accessed.perform s s.rtiReads).then_registers ?_
  rw [leaveInterrupt_eq]
  dsimp only
  split <;> simp

theorem resetSequence_accessed (s : State) : Accessed s s.resetSequence :=
  (read16_accessed s _).then_registers rfl

theorem fetch_accessed (s : State) : Accessed s s.fetch.after := by
  refine (readByte_accessed s (s.codeAddr 0)).trans ?_
  show Accessed _ (State.readCode _ _ _).after
  rw [readCode_after]
  exact .perform _ _

/-! ### The shapes of an instruction: each answers a next state, and makes accesses -/

/-- A result that is a next state, reached by accesses and changes of registers. -/
def OnlyAccesses (s : State) (r : Result) : Prop := ∃ t, r = .next t ∧ Accessed s t

theorem Accessed.next {s t u : State} (h : Accessed s t) (e : u.bus = t.bus) : OnlyAccesses s (.next u) :=
  ⟨u, rfl, h.then_registers e⟩

/-- Accesses, then more of them with a result. -/
theorem Accessed.andThen {s t : State} {r : Result} (h : Accessed s t) (h' : OnlyAccesses t r) : OnlyAccesses s r := by
  obtain ⟨u, hr, hu⟩ := h'
  exact ⟨u, hr, h.trans hu⟩

/-- A change of registers alone. -/
theorem OnlyAccesses.of_bus_eq {s t : State} (h : t.bus = s.bus) : OnlyAccesses s (.next t) := ⟨t, rfl, .of_bus_eq h⟩

section
variable {s : State} {len : Word} {f : State → Word → State}

theorem loadM_onlyAccesses {ea : State → Reading DataAddr} (hea : Accessed s (ea s).after)
    (hf : ∀ t v, (f t v).bus = t.bus) : OnlyAccesses s (loadM f ea len s) :=
  (hea.trans (readData_accessed _ _ _)).next (hf _ _)

theorem loadX_onlyAccesses {ea : State → DataAddr} (hf : ∀ t v, (f t v).bus = t.bus) : OnlyAccesses s (loadX f ea len s) :=
  (readData_accessed _ _ _).next (hf _ _)

theorem immM_onlyAccesses {imm : Word} (hf : ∀ t v, (f t v).bus = t.bus) : OnlyAccesses s (immM f imm s) :=
  .of_bus_eq (hf _ _)

theorem immX_onlyAccesses {imm : Word} (hf : ∀ t v, (f t v).bus = t.bus) : OnlyAccesses s (immX f imm s) :=
  .of_bus_eq (hf _ _)

theorem store_onlyAccesses {w : Width} {v : Word} {ea : State → Reading DataAddr} (hea : Accessed s (ea s).after) :
    OnlyAccesses s (store w v ea len s) :=
  (hea.trans (writeData_accessed _ _ _ _)).next (bus_advance _ _)

/-- The read-modify-write shapes read their data, write it back and set flags. -/
theorem stepMem_onlyAccesses {g : Width → Word → Word} {ea : State → DataAddr} : OnlyAccesses s (stepMem g ea len s) :=
  ((readData_accessed _ _ _).trans (writeData_accessed _ _ _ _)).next ((bus_advance _ _).trans (bus_setNZ _ _ _))

theorem shiftMem_onlyAccesses {g : Width → Word → Word × Bool} {ea : State → DataAddr} : OnlyAccesses s (shiftMem g ea len s) :=
  ((readData_accessed _ _ _).trans (writeData_accessed _ _ _ _)).next ((bus_advance _ _).trans (bus_shiftFlags _ _ _))

theorem testAndStore_onlyAccesses {g : Word → Word → Word} {ea : State → DataAddr} : OnlyAccesses s (testAndStore g ea len s) :=
  ((readData_accessed _ _ _).trans (writeData_accessed _ _ _ _)).next ((bus_advance _ _).trans (bus_testBits _ _))

theorem pushByte_onlyAccesses {age : Age} {v : State → Byte} : OnlyAccesses s (pushByte age v s) :=
  (push8_accessed s age (v s)).next (bus_advance _ _)

theorem pushReg_onlyAccesses {w : Width} {v : Word} : OnlyAccesses s (pushReg w v s) :=
  (pushWidth_accessed s .old w v).next (bus_advance _ _)

theorem pushWord_onlyAccesses {v : Word} : OnlyAccesses s (pushWord v len s) :=
  (push16_accessed s .new v).next (bus_advance _ _)

theorem blockMove_onlyAccesses {delta : Word} {tt ss : Byte} : OnlyAccesses s (blockMove delta tt ss s) := by
  have moved : Accessed s (s.moveByte delta tt ss) := by
    rw [moveByte_eq]
    exact (Accessed.perform s _).then_registers rfl
  exact moved.next (by split <;> rfl)

end

/-! ### Every instruction and every step -/

/-- Every instruction answers a next state, and has changed memory and devices by accesses only: by the shape of its meaning. -/
theorem exec_onlyAccesses (i : Instr) (s : State) : OnlyAccesses s (exec i s) := by
  cases i with
  -- Data of `M` bits read, at an address, through a pointer and through a long pointer.
  | oraStkS _ | oraDir _ | oraAbs _ | oraLong _ | oraDirX _ | oraAbsY _ | oraAbsX _ | oraLongX _ | andStkS _ | bitDir _ | andDir _
    | bitAbs _ | andAbs _ | andLong _ | bitDirX _ | andDirX _ | andAbsY _ | bitAbsX _ | andAbsX _ | andLongX _ | eorStkS _
    | eorDir _ | eorAbs _ | eorLong _ | eorDirX _ | eorAbsY _ | eorAbsX _ | eorLongX _ | adcStkS _ | adcDir _ | adcAbs _ | adcLong _
    | adcDirX _ | adcAbsY _ | adcAbsX _ | adcLongX _ | ldaStkS _ | ldaDir _ | ldaAbs _ | ldaLong _ | ldaDirX _ | ldaAbsY _
    | ldaAbsX _ | ldaLongX _ | cmpStkS _ | cmpDir _ | cmpAbs _ | cmpLong _ | cmpDirX _ | cmpAbsY _ | cmpAbsX _ | cmpLongX _
    | sbcStkS _ | sbcDir _ | sbcAbs _ | sbcLong _ | sbcDirX _ | sbcAbsY _ | sbcAbsX _ | sbcLongX _ =>
    exact loadM_onlyAccesses (.refl _) (fun _ _ => by simp)
  | oraDirXInd _ | oraDirIndY _ | oraDirInd _ | oraStkSIndY _ | andDirXInd _ | andDirIndY _ | andDirInd _ | andStkSIndY _
    | eorDirXInd _ | eorDirIndY _ | eorDirInd _ | eorStkSIndY _ | adcDirXInd _ | adcDirIndY _ | adcDirInd _ | adcStkSIndY _
    | ldaDirXInd _ | ldaDirIndY _ | ldaDirInd _ | ldaStkSIndY _ | cmpDirXInd _ | cmpDirIndY _ | cmpDirInd _ | cmpStkSIndY _
    | sbcDirXInd _ | sbcDirIndY _ | sbcDirInd _ | sbcStkSIndY _ =>
    exact loadM_onlyAccesses (throughPointer_accessed _ _ _) (fun _ _ => by simp)
  | oraDirLong _ | oraDirLongY _ | andDirLong _ | andDirLongY _ | eorDirLong _ | eorDirLongY _ | adcDirLong _ | adcDirLongY _
    | ldaDirLong _ | ldaDirLongY _ | cmpDirLong _ | cmpDirLongY _ | sbcDirLong _ | sbcDirLongY _ =>
    exact loadM_onlyAccesses (throughLongPointer_accessed _ _ _) (fun _ _ => by simp)
  -- Immediate data, and index registers.
  | oraImm _ | andImm _ | eorImm _ | adcImm _ | bitImm _ | ldaImm _ | cmpImm _ | sbcImm _ =>
    exact immM_onlyAccesses (fun _ _ => by simp)
  | ldyDir _ | ldxDir _ | ldyAbs _ | ldxAbs _ | ldyDirX _ | ldxDirY _ | ldyAbsX _ | ldxAbsY _ | cpyDir _ | cpyAbs _ | cpxDir _
    | cpxAbs _ =>
    exact loadX_onlyAccesses (fun _ _ => by simp)
  | ldyImm _ | ldxImm _ | cpyImm _ | cpxImm _ =>
    exact immX_onlyAccesses (fun _ _ => by simp)
  -- Stores.
  | stzDir _ | stzDirX _ | staStkS _ | styDir _ | staDir _ | stxDir _ | styAbs _ | staAbs _ | stxAbs _ | staLong _ | styDirX _
    | staDirX _ | stxDirY _ | staAbsY _ | stzAbs _ | staAbsX _ | stzAbsX _ | staLongX _ =>
    exact store_onlyAccesses (.refl _)
  | staDirXInd _ | staDirIndY _ | staDirInd _ | staStkSIndY _ =>
    exact store_onlyAccesses (throughPointer_accessed _ _ _)
  | staDirLong _ | staDirLongY _ =>
    exact store_onlyAccesses (throughLongPointer_accessed _ _ _)
  -- Read-modify-write.
  | decDir _ | decAbs _ | decDirX _ | decAbsX _ | incDir _ | incAbs _ | incDirX _ | incAbsX _ =>
    exact stepMem_onlyAccesses
  | aslDir _ | aslAbs _ | aslDirX _ | aslAbsX _ | lsrDir _ | lsrAbs _ | lsrDirX _ | lsrAbsX _ =>
    exact shiftMem_onlyAccesses
  | rolDir _ | rolAbs _ | rolDirX _ | rolAbsX _ =>
    exact shiftMem_onlyAccesses (g := fun w v => rolValue w s.c v)
  | rorDir _ | rorAbs _ | rorDirX _ | rorAbsX _ =>
    exact shiftMem_onlyAccesses (g := fun w v => rorValue w s.c v)
  | tsbDir _ | tsbAbs _ | trbDir _ | trbAbs _ =>
    exact testAndStore_onlyAccesses
  -- Registers only: accumulator and index operations, flags, transfers, branches and plain jumps.
  | aslAcc | clc | incAcc | tcs | rolAcc | sec | decAcc | tsc | wdm _ | lsrAcc | cli | tcd | jmpLong _ | rorAcc | sei | tdc | dey
    | txa | tya | txs | txy | tay | tax | clv | tsx | tyx | rep _ | iny | dex | wai | cld | stp | sep _ | inx | nop | xba | sed
    | xce =>
    exact .of_bus_eq (by simp)
  | bpl _ | bmi _ | jmpAbs _ | bvc _ | bvs _ | bra _ | brl _ | bcc _ | bcs _ | bne _ | beq _ =>
    exact .of_bus_eq (bus_setPC _ _)
  -- The stack.
  | php | phk | phb =>
    exact pushByte_onlyAccesses
  | pha | phy | phx =>
    exact pushReg_onlyAccesses
  | phd | per _ | pea _ =>
    exact pushWord_onlyAccesses
  | pei _ =>
    exact (read16_accessed s _).andThen pushWord_onlyAccesses
  | pla =>
    exact (pullWidth_accessed s .old s.mWidth).next (by simp)
  | ply | plx =>
    exact (pullWidth_accessed s .old s.xWidth).next (by simp)
  | plp =>
    exact (pull8_accessed s .old).next (by simp)
  | plb =>
    exact (pull8_accessed s .new).next (by simp)
  | pld =>
    exact (pull16_accessed s .new).next (by simp)
  | rts =>
    exact (pull16_accessed s .old).next (by simp)
  | rtl =>
    exact (pull24_accessed s .new).next (by simp)
  -- Jumps through pointers, and calls.
  | jmpAbsInd hhll =>
    exact (absPointer_accessed s hhll).next (bus_setPC _ _)
  | jmpAbsXInd hhll =>
    exact (absXPointer_accessed s hhll).next (bus_setPC _ _)
  | jmpAbsLong hhll =>
    exact (absLongPointer_accessed s hhll).next (bus_jumpLong _ _)
  | jsrAbs _ =>
    exact (push16_accessed s .old (s.PC + 2)).next (bus_setPC _ _)
  | jsl _ =>
    exact (push24_accessed s .new s.K (s.PC + 3)).next (bus_jumpLong _ _)
  | jsrAbsXInd hhll =>
    exact ((push16_accessed s .new (s.PC + 2)).trans (absXPointer_accessed _ hhll)).next (bus_setPC _ _)
  -- Block moves, software interrupts and the return from them.
  | mvp _ _ | mvn _ _ =>
    exact blockMove_onlyAccesses
  | brk =>
    exact (enterInterrupt_accessed s .brk _).next rfl
  | cop _ =>
    exact (enterInterrupt_accessed s .cop _).next rfl
  | rti =>
    exact (leaveInterrupt_accessed s).next rfl

/-- Every step answers a next state, and from the polled state on it has changed memory and devices by accesses only. -/
theorem step_onlyAccesses (s : State) : OnlyAccesses s.poll (step s) := by
  unfold step
  dsimp only
  cases s.poll.action with
  | reset => exact (resetSequence_accessed _).next rfl
  | interrupt k => exact (enterInterrupt_accessed _ k _).next rfl
  | wake => exact .of_bus_eq rfl
  | idle => exact .of_bus_eq rfl
  | execute => exact (fetch_accessed _).andThen (exec_onlyAccesses _ _)

/-- The same of a step's next state. -/
theorem accessed_of_step {s t : State} (h : step s = .next t) : Accessed s.poll t := by
  obtain ⟨u, hu, hacc⟩ := step_onlyAccesses s
  obtain rfl : u = t := by simpa [h] using hu.symm
  exact hacc

/-- Polling moves no region. -/
theorem kindAt_poll (s : State) (a : Addr) : s.poll.kindAt a = s.kindAt a := State.kindAt_congr (poll_regions s) a

/-- Polling leaves what is no device's as it is, though the devices' time goes on. -/
theorem read_poll {s : State} {a : Addr} (hk : s.kindAt a ≠ .device) : s.poll.read a = s.read a := by
  rw [State.read_of_ne_device hk, State.read_of_ne_device (by rwa [kindAt_poll]), poll_mem]

/-- A byte of a device is what the platform's function gives of the accesses so far. -/
theorem read_device {s : State} {a : Addr} (hk : s.kindAt a = .device) :
    s.read a = Config.deviceByte s.deviceLog s.deviceTime a := by
  rw [State.read, hk]; rfl

end Sys2Proof.Machine
end

section
/-! The statements of the scope (`00_scope.md`). -/

namespace Sys2Proof.Machine

/-- Settles O29: a step polls and then only makes accesses, which leave ROM and the map and are recorded at devices' addresses. -/
theorem onlyRamChanges : Obligations.OnlyRamChanges := by
  intro s t hwf hstep
  have acc : Accessed s.poll t := accessed_of_step hstep
  have time : t.deviceTime = s.deviceTime + 1 := by rw [acc.deviceTime_eq, poll_deviceTime]
  refine ⟨fun a hk => ?_, by rw [acc.regions_eq, poll_regions], time, ?_⟩
  · calc t.read a = s.poll.read a := acc.read_rom (by rwa [poll_mem]) (by rwa [kindAt_poll])
      _ = s.read a := read_poll (by simp [hk])
  · obtain ⟨l, hlog, hl⟩ := acc.deviceLog_eq
    refine ⟨l, by rw [hlog, poll_deviceLog], fun p hp => ?_⟩
    obtain ⟨hnumber, hdevice⟩ := hl p hp
    exact ⟨by rw [hnumber, acc.deviceTime_eq], by rwa [kindAt_poll] at hdevice⟩

/-- Settles O7, clause by clause from what a store is at each kind of address. -/
theorem storesByKind : Obligations.StoresByKind := by
  intro s a b v hwf
  refine ⟨fun hram => ⟨State.read_write_self hwf hram v, ?_⟩, fun hrom => State.write_rom hrom v, fun hdevice => ?_,
    fun hne hb => State.read_write_ne hwf v hne hb⟩
  · rw [State.write_ram hram, State.setMem_deviceLog]
  · rw [State.write_device hdevice]
    exact ⟨rfl, rfl⟩

/-- Settles O8: a device's second read sees the first among the accesses. -/
theorem readsByKind : Obligations.ReadsByKind := by
  intro s a
  refine ⟨fun hk => ⟨State.read_of_ne_device hk, State.readByte_of_ne_device hk⟩, fun hk => ?_⟩
  have after := State.readByte_device hk
  have again : (s.readByte a).after.kindAt a = .device := hk
  exact ⟨read_device hk, after, by rw [read_device again, after]; rfl⟩

/-- Settles O16: every action of a step answers a next state, and so does every instruction. -/
theorem everyStepAnswersNext : Obligations.EveryStepAnswersNext := by
  intro s
  obtain ⟨t, ht, -⟩ := step_onlyAccesses s
  exact ⟨t, ht⟩

end Sys2Proof.Machine
end

section
/-! The registers with few writers (`10_state.md` R26, R27, R31, R33, R36, R37): what it is for a state to be another one with `e`, `K`,
`DBR`, `D` and `PC` as they were and the forcing rule kept, each shared operation and each instruction shape read that way, which
instructions are exceptions, and what follows for `exec` and `step`. -/

namespace Sys2Proof.Machine

/-! ### What an instruction keeps before it moves `PC` -/

/-- From `s` to `t` none of `e`, `K`, `DBR`, `D` has changed but what `w` names, `PC` has not moved, and the forcing rule, where it
held, still holds. Other registers and memory are not spoken of. -/
structure Keeps (w : Writes) (s t : State) : Prop where
  e : w.e = true ∨ t.e = s.e
  K : w.K = true ∨ t.K = s.K
  DBR : w.DBR = true ∨ t.DBR = s.DBR
  D : w.D = true ∨ t.D = s.D
  PC : t.PC = s.PC
  forced : Forced s → Forced t

section
variable {w : Writes} {s t u : State}

@[simp] theorem Keeps.refl (w : Writes) (s : State) : Keeps w s s :=
  ⟨.inr rfl, .inr rfl, .inr rfl, .inr rfl, rfl, id⟩

theorem Keeps.trans (h : Keeps w s t) (h' : Keeps w t u) : Keeps w s u where
  e := h.e.elim .inl fun a => h'.e.imp_right fun b => b.trans a
  K := h.K.elim .inl fun a => h'.K.imp_right fun b => b.trans a
  DBR := h.DBR.elim .inl fun a => h'.DBR.imp_right fun b => b.trans a
  D := h.D.elim .inl fun a => h'.D.imp_right fun b => b.trans a
  PC := h'.PC.trans h.PC
  forced := h'.forced ∘ h.forced

/-! ### Changes that are not seen -/

/-- The fields that `Keeps` and the forcing rule look at; of `P` the bits `m` and `x`. -/
def State.watched (s : State) : (Bool × Byte × Byte × Word × Word) × Word × Word × Word × Byte :=
  ((s.e, s.K, s.DBR, s.D, s.PC), s.S, s.X, s.Y, s.P &&& 0x30#8)

theorem keeps_of_watched_eq (h : t.watched = s.watched) : Keeps w s t := by
  simp only [State.watched, Prod.mk.injEq] at h
  obtain ⟨⟨he, hK, hDBR, hD, hPC⟩, hS, hX, hY, hP⟩ := h
  exact ⟨.inr he, .inr hK, .inr hDBR, .inr hD, hPC, fun hf => hf.of_eq he hP hS hX hY⟩

theorem keeps_iff_of_watched_eq (h : u.watched = t.watched) : Keeps w s u ↔ Keeps w s t :=
  ⟨fun k => k.trans (keeps_of_watched_eq h.symm), fun k => k.trans (keeps_of_watched_eq h)⟩

@[simp] theorem keeps_setC (v : Word) : Keeps w s (t.setC v) ↔ Keeps w s t := keeps_iff_of_watched_eq rfl
@[simp] theorem keeps_setRun (r : RunState) : Keeps w s (t.setRun r) ↔ Keeps w s t := keeps_iff_of_watched_eq rfl
@[simp] theorem keeps_setPending (r : Requests) : Keeps w s (t.setPending r) ↔ Keeps w s t := keeps_iff_of_watched_eq rfl
@[simp] theorem keeps_setFreeCount (k : Nat) : Keeps w s (t.setFreeCount k) ↔ Keeps w s t := keeps_iff_of_watched_eq rfl
@[simp] theorem keeps_perform (l : List Access) : Keeps w s (t.perform l) ↔ Keeps w s t :=
  keeps_iff_of_watched_eq (by simp [State.watched])

/-! Flags other than `m` and `x`. -/

@[simp] theorem keeps_setN (b : Bool) : Keeps w s (t.setN b) ↔ Keeps w s t :=
  keeps_iff_of_watched_eq (by simp [State.watched, putBit_and_mask])
@[simp] theorem keeps_setV (b : Bool) : Keeps w s (t.setV b) ↔ Keeps w s t :=
  keeps_iff_of_watched_eq (by simp [State.watched, putBit_and_mask])
@[simp] theorem keeps_setDec (b : Bool) : Keeps w s (t.setDec b) ↔ Keeps w s t :=
  keeps_iff_of_watched_eq (by simp [State.watched, putBit_and_mask])
@[simp] theorem keeps_setI (b : Bool) : Keeps w s (t.setI b) ↔ Keeps w s t :=
  keeps_iff_of_watched_eq (by simp [State.watched, putBit_and_mask])
@[simp] theorem keeps_setZ (b : Bool) : Keeps w s (t.setZ b) ↔ Keeps w s t :=
  keeps_iff_of_watched_eq (by simp [State.watched, putBit_and_mask])
@[simp] theorem keeps_setCarry (b : Bool) : Keeps w s (t.setCarry b) ↔ Keeps w s t :=
  keeps_iff_of_watched_eq (by simp [State.watched, putBit_and_mask])

/-! The operations on data: the accumulator and the flags. -/

@[simp] theorem keeps_setAcc (v : Word) : Keeps w s (t.setAcc v) ↔ Keeps w s t := keeps_setC _
@[simp] theorem keeps_setNZ (n : Width) (v : Word) : Keeps w s (t.setNZ n v) ↔ Keeps w s t := by simp [State.setNZ]
@[simp] theorem keeps_putAccNZ (v : Word) : Keeps w s (t.putAccNZ v) ↔ Keeps w s t := by simp [State.putAccNZ]
@[simp] theorem keeps_putArith (r : Arith) : Keeps w s (t.putArith r) ↔ Keeps w s t := by simp [State.putArith]
@[simp] theorem keeps_compare (n : Width) (reg data : Word) : Keeps w s (t.compare n reg data) ↔ Keeps w s t := by
  simp [State.compare]
@[simp] theorem keeps_shiftFlags (n : Width) (r : Word × Bool) : Keeps w s (t.shiftFlags n r) ↔ Keeps w s t := by
  simp [State.shiftFlags]
@[simp] theorem keeps_testBits (data : Word) : Keeps w s (t.testBits data) ↔ Keeps w s t := keeps_setZ _
@[simp] theorem keeps_bitData (data : Word) : Keeps w s (t.bitData data) ↔ Keeps w s t := by simp [State.bitData]
@[simp] theorem keeps_adc (data : Word) : Keeps w s (t.adc data) ↔ Keeps w s t := by
  unfold State.adc; split_ifs <;> simp
@[simp] theorem keeps_sbc (data : Word) : Keeps w s (t.sbc data) ↔ Keeps w s t := by
  unfold State.sbc; split_ifs <;> simp
@[simp] theorem keeps_cmp (data : Word) : Keeps w s (t.cmp data) ↔ Keeps w s t := keeps_compare _ _ _
@[simp] theorem keeps_cpx (data : Word) : Keeps w s (t.cpx data) ↔ Keeps w s t := keeps_compare _ _ _
@[simp] theorem keeps_cpy (data : Word) : Keeps w s (t.cpy data) ↔ Keeps w s t := keeps_compare _ _ _
@[simp] theorem keeps_andData (data : Word) : Keeps w s (t.andData data) ↔ Keeps w s t := keeps_putAccNZ _
@[simp] theorem keeps_eorData (data : Word) : Keeps w s (t.eorData data) ↔ Keeps w s t := keeps_putAccNZ _
@[simp] theorem keeps_oraData (data : Word) : Keeps w s (t.oraData data) ↔ Keeps w s t := keeps_putAccNZ _
@[simp] theorem keeps_lda (data : Word) : Keeps w s (t.lda data) ↔ Keeps w s t := keeps_putAccNZ _

/-! Data in memory. -/

@[simp] theorem keeps_writeData (n : Width) (ea : DataAddr) (v : Word) : Keeps w s (t.writeData n ea v) ↔ Keeps w s t := by
  simp [writeData_eq]

/-! ### Writes under the forcing rule (R36) -/

@[simp] theorem Keeps.setX (h : Keeps w s t) (v : Word) : Keeps w s (t.setX v) := { h with forced := fun f => (h.forced f).setX v }
@[simp] theorem Keeps.setY (h : Keeps w s t) (v : Word) : Keeps w s (t.setY v) := { h with forced := fun f => (h.forced f).setY v }
@[simp] theorem Keeps.setS (h : Keeps w s t) (v : Word) : Keeps w s (t.setS v) := { h with forced := fun f => (h.forced f).setS v }
@[simp] theorem Keeps.setP (h : Keeps w s t) (p : Byte) : Keeps w s (t.setP p) := { h with forced := fun f => (h.forced f).setP p }
@[simp] theorem Keeps.moveS (h : Keeps w s t) (k : Word) : Keeps w s (t.moveS k) := h.setS _
@[simp] theorem Keeps.ldx (h : Keeps w s t) (data : Word) : Keeps w s (t.ldx data) := by simp [State.ldx, h]
@[simp] theorem Keeps.ldy (h : Keeps w s t) (data : Word) : Keeps w s (t.ldy data) := by simp [State.ldy, h]

/-! ### Writes that are named -/

@[simp] theorem Keeps.setE (h : Keeps w s t) (hw : w.e = true) (b : Bool) : Keeps w s (t.setE b) :=
  { h with e := .inl hw, forced := fun _ => .setE b }
@[simp] theorem keeps_setK (hw : w.K = true) (v : Byte) : Keeps w s (t.setK v) ↔ Keeps w s t :=
  ⟨fun h => { h with K := .inl hw, forced := h.forced }, fun h => { h with K := .inl hw, forced := h.forced }⟩
@[simp] theorem keeps_setDBR (hw : w.DBR = true) (v : Byte) : Keeps w s (t.setDBR v) ↔ Keeps w s t :=
  ⟨fun h => { h with DBR := .inl hw, forced := h.forced }, fun h => { h with DBR := .inl hw, forced := h.forced }⟩
@[simp] theorem keeps_setD (hw : w.D = true) (v : Word) : Keeps w s (t.setD v) ↔ Keeps w s t :=
  ⟨fun h => { h with D := .inl hw, forced := h.forced }, fun h => { h with D := .inl hw, forced := h.forced }⟩

/-! ### The stack -/

@[simp] theorem Keeps.push8 (h : Keeps w s t) (age : Age) (v : Byte) : Keeps w s (t.push8 age v) := by simp [push8_eq, h]
@[simp] theorem Keeps.push16 (h : Keeps w s t) (age : Age) (v : Word) : Keeps w s (t.push16 age v) := by simp [push16_eq, h]
@[simp] theorem Keeps.push24 (h : Keeps w s t) (age : Age) (b : Byte) (v : Word) : Keeps w s (t.push24 age b v) := by
  simp [push24_eq, h]
@[simp] theorem Keeps.pushWidth (h : Keeps w s t) (age : Age) (n : Width) (v : Word) : Keeps w s (t.pushWidth age n v) := by
  cases n
  · exact h.push8 age (lo8 v)
  · exact h.push16 age v
@[simp] theorem Keeps.pull8 (h : Keeps w s t) (age : Age) : Keeps w s (t.pull8 age).after := by simp [pull8_after, h]
@[simp] theorem Keeps.pull16 (h : Keeps w s t) (age : Age) : Keeps w s (t.pull16 age).after := by simp [pull16_after, h]
@[simp] theorem Keeps.pull24 (h : Keeps w s t) (age : Age) : Keeps w s (t.pull24 age).after := by simp [pull24_after, h]
@[simp] theorem Keeps.pullWidth (h : Keeps w s t) (age : Age) (n : Width) : Keeps w s (t.pullWidth age n).after := by
  simp [pullWidth_after, h]

/-! ### The modes that read a pointer -/

theorem keeps_throughPointer (pointer : DataAddr) (idx : Word) : Keeps w s (s.throughPointer pointer idx).after := by
  simp [State.throughPointer, read16_after]
theorem keeps_throughLongPointer (ll : Byte) (idx : Word) : Keeps w s (s.throughLongPointer ll idx).after := by
  simp [State.throughLongPointer, read24_after]

@[simp] theorem keeps_found (ea : State → DataAddr) : Keeps w s (found ea s).after := .refl w s
@[simp] theorem keeps_eaDirXInd (ll : Byte) : Keeps w s (eaDirXInd ll s).after := keeps_throughPointer _ _
@[simp] theorem keeps_eaDirInd (ll : Byte) : Keeps w s (eaDirInd ll s).after := keeps_throughPointer _ _
@[simp] theorem keeps_eaDirIndY (ll : Byte) : Keeps w s (eaDirIndY ll s).after := keeps_throughPointer _ _
@[simp] theorem keeps_eaStkSIndY (ll : Byte) : Keeps w s (eaStkSIndY ll s).after := keeps_throughPointer _ _
@[simp] theorem keeps_eaDirLong (ll : Byte) : Keeps w s (eaDirLong ll s).after := keeps_throughLongPointer _ _
@[simp] theorem keeps_eaDirLongY (ll : Byte) : Keeps w s (eaDirLongY ll s).after := keeps_throughLongPointer _ _

/-! ### The shapes of an instruction: what is kept, and where `PC` goes -/

/-- A result that is a next state with `PC` at `pc`, reached by keeping the rest that `w` does not name. -/
def EndsAt (w : Writes) (s : State) (pc : Word) (r : Result) : Prop := ∃ u, Keeps w s u ∧ r = .next (u.setPC pc)

/-- What such a result says of its state, `PC` apart and of `PC`. -/
theorem EndsAt.of_next {pc : Word} (h : EndsAt w s pc (.next t)) : Keeps w s (t.setPC s.PC) ∧ t.PC = pc := by
  obtain ⟨u, kept, ht⟩ := h
  obtain rfl : t = u.setPC pc := by simpa using ht
  exact ⟨by rw [← kept.PC]; exact kept, rfl⟩

/-- The end of an instruction that sets `PC` itself. -/
theorem Keeps.goesTo (h : Keeps w s u) (pc : Word) : EndsAt w s pc (.next (u.setPC pc)) := ⟨u, h, rfl⟩

/-- The end of every other instruction (R31). -/
theorem Keeps.advances (h : Keeps w s u) (len : Word) : EndsAt w s (s.PC + len) (.next (u.advance len)) :=
  ⟨u, h, by rw [State.advance, h.PC]⟩

variable {len : Word} {f : State → Word → State}

theorem loadM_endsAt {ea : State → Reading DataAddr} (hea : Keeps w s (ea s).after)
    (hf : ∀ t v, Keeps w s t → Keeps w s (f t v)) : EndsAt w s (s.PC + len) (loadM f ea len s) :=
  Keeps.advances (hf _ _ (by simpa using hea)) len

theorem loadX_endsAt {ea : State → DataAddr} (hf : ∀ t v, Keeps w s t → Keeps w s (f t v)) :
    EndsAt w s (s.PC + len) (loadX f ea len s) :=
  Keeps.advances (hf _ _ (by simp)) len

theorem immM_endsAt {imm : Word} (hf : ∀ t v, Keeps w s t → Keeps w s (f t v)) :
    EndsAt w s (s.PC + immLen s.mWidth) (immM f imm s) :=
  (hf s _ (.refl w s)).advances _

theorem immX_endsAt {imm : Word} (hf : ∀ t v, Keeps w s t → Keeps w s (f t v)) :
    EndsAt w s (s.PC + immLen s.xWidth) (immX f imm s) :=
  (hf s _ (.refl w s)).advances _

theorem store_endsAt {n : Width} {v : Word} {ea : State → Reading DataAddr} (hea : Keeps w s (ea s).after) :
    EndsAt w s (s.PC + len) (store n v ea len s) :=
  Keeps.advances (by simpa using hea) len

/-! The read-modify-write shapes read their data, write it back and set flags. -/

theorem stepMem_endsAt {g : Width → Word → Word} {ea : State → DataAddr} : EndsAt w s (s.PC + len) (stepMem g ea len s) :=
  Keeps.advances (by simp) len

theorem shiftMem_endsAt {g : Width → Word → Word × Bool} {ea : State → DataAddr} :
    EndsAt w s (s.PC + len) (shiftMem g ea len s) :=
  Keeps.advances (by simp) len

theorem testAndStore_endsAt {g : Word → Word → Word} {ea : State → DataAddr} :
    EndsAt w s (s.PC + len) (testAndStore g ea len s) :=
  Keeps.advances (by simp) len

theorem shiftAcc_endsAt {g : Width → Word → Word × Bool} : EndsAt w s (s.PC + 1) (shiftAcc g s) :=
  Keeps.advances (by simp) 1

theorem branch8_endsAt {taken : Bool} {ll : Byte} :
    EndsAt w s (if taken then s.rel8Target ll else s.PC + 2) (branch8 taken ll s) :=
  (Keeps.refl w s).goesTo _

/-- A block move writes `DBR`, and `PC` goes on only after its last byte (`49_block_move.md` R331). -/
theorem blockMove_endsAt (hw : w.DBR = true) {delta : Word} {tt ss : Byte} : ∃ pc, EndsAt w s pc (blockMove delta tt ss s) := by
  have moved : Keeps w s (s.moveByte delta tt ss) := by
    rw [moveByte_eq]
    exact Keeps.setY (Keeps.setX (by simp [hw]) _) _
  unfold blockMove
  dsimp only
  split
  · exact ⟨_, moved.advances 3⟩
  · exact ⟨_, moved.goesTo (s.moveByte delta tt ss).PC⟩

/-- Taking an interrupt writes `K` and goes to the handler (`60_exceptions.md` R430). -/
theorem enterInterrupt_endsAt (hw : w.K = true) (k : Interrupt) (ret : Word) :
    ∃ pc, EndsAt w s pc (.next (s.enterInterrupt k ret)) := by
  have kept : Keeps w s ((((((s.perform (s.entryAccesses k ret)).moveS (-s.frameStep)).setI true).setDec false).setK
      0x00#8).setRun .running |>.setPending (s.pending.take k)) := by simp [hw]
  rw [enterInterrupt_eq]
  exact ⟨_, kept.goesTo _⟩

/-- Returning from an interrupt goes to the pulled address, and writes `K` in native mode only (`46_software_interrupts.md` R285). -/
theorem leaveInterrupt_endsAt (hw : s.e = false → w.K = true) : ∃ pc, EndsAt w s pc (.next s.leaveInterrupt) := by
  have pulled : Keeps w s (((s.perform s.rtiReads).moveS s.frameStep).setP (s.read (s.stackAddr .old 1))) := by simp
  rw [leaveInterrupt_eq]
  dsimp only
  split
  · exact ⟨_, pulled.goesTo _⟩
  · next native => exact ⟨_, ((keeps_setK (hw (by simpa using native)) _).2 pulled).goesTo _⟩

end

/-! ### Which instructions are exceptions -/

/-- Which of `e`, `K`, `DBR` and `D` an instruction may write when it begins with `e` as given (R26, R27, R33, `53_transfers.md` R399). -/
def rareWrites (i : Instr) (e : Bool) : Writes :=
  match i with
  | .xce => { e := true }
  | .plb | .mvn _ _ | .mvp _ _ => { DBR := true }
  | .pld | .tcd => { D := true }
  | .jmpLong _ | .jmpAbsLong _ | .jsl _ | .rtl | .brk | .cop _ => { K := true }
  | .rti => { K := !e }
  | _ => {}

/-- The instructions that R31 names: they set `PC` themselves. -/
def setsPC : Instr → Bool
  | .bcc _ | .bcs _ | .beq _ | .bmi _ | .bne _ | .bpl _ | .bra _ | .bvc _ | .bvs _ | .brl _ => true
  | .jmpAbs _ | .jmpLong _ | .jmpAbsInd _ | .jmpAbsXInd _ | .jmpAbsLong _ => true
  | .jsrAbs _ | .jsrAbsXInd _ | .jsl _ | .rts | .rtl => true
  | .mvn _ _ | .mvp _ _ | .brk | .cop _ | .rti => true
  | _ => false

/-! The lists as the rules give them. -/

section
variable {i : Instr} {e : Bool}

theorem eq_xce_of_rareWrites (h : (rareWrites i e).e = true) : i = .xce := by
  cases i with
  | xce => rfl
  | _ => cases h

theorem writer_of_rareWrites_DBR (h : (rareWrites i e).DBR = true) : i = .plb ∨ ∃ tt ss, i = .mvn tt ss ∨ i = .mvp tt ss := by
  cases i with
  | plb => exact .inl rfl
  | mvn tt ss => exact .inr ⟨tt, ss, .inl rfl⟩
  | mvp tt ss => exact .inr ⟨tt, ss, .inr rfl⟩
  | _ => cases h

theorem writer_of_rareWrites_D (h : (rareWrites i e).D = true) : i = .pld ∨ i = .tcd := by
  cases i with
  | pld => exact .inl rfl
  | tcd => exact .inr rfl
  | _ => cases h

theorem writer_of_rareWrites_K (h : (rareWrites i e).K = true) :
    (∃ a, i = .jmpLong a) ∨ (∃ v, i = .jmpAbsLong v) ∨ (∃ a, i = .jsl a) ∨ i = .rtl ∨ (i = .rti ∧ e = false) ∨ i = .brk ∨
      ∃ b, i = .cop b := by
  cases i with
  | jmpLong _ | jmpAbsLong _ | jsl _ | rtl | brk | cop _ => simp
  | rti =>
    have native : (!e) = true := h
    simpa using native
  | _ => cases h

theorem mem_of_setsPC (h : setsPC i = true) :
    (∃ b, i = .bcc b ∨ i = .bcs b ∨ i = .beq b ∨ i = .bmi b ∨ i = .bne b ∨ i = .bpl b ∨ i = .bra b ∨ i = .bvc b ∨
      i = .bvs b ∨ i = .cop b) ∨
    (∃ v, i = .brl v ∨ i = .jmpAbs v ∨ i = .jmpAbsInd v ∨ i = .jmpAbsXInd v ∨ i = .jmpAbsLong v ∨ i = .jsrAbs v ∨
      i = .jsrAbsXInd v) ∨
    (∃ a, i = .jmpLong a ∨ i = .jsl a) ∨ (∃ tt ss, i = .mvn tt ss ∨ i = .mvp tt ss) ∨
    i = .rtl ∨ i = .rts ∨ i = .brk ∨ i = .rti := by
  cases i with
  | bcc _ | bcs _ | beq _ | bmi _ | bne _ | bpl _ | bra _ | bvc _ | bvs _ | brl _ | jmpAbs _ | jmpLong _ | jmpAbsInd _
    | jmpAbsXInd _ | jmpAbsLong _ | jsrAbs _ | jsrAbsXInd _ | jsl _ | rts | rtl | mvn _ _ | mvp _ _ | brk | cop _ | rti => simp
  | _ => cases h

end

/-- What an instruction does to the registers with few writers. -/
def KeepsRare (i : Instr) (s : State) : Prop :=
  ∃ pc, EndsAt (rareWrites i s.e) s pc (exec i s) ∧ (setsPC i = false → pc = s.PC + BitVec.ofNat 16 (instrLen s.m s.x i))

theorem immLen_mWidth_ofNat (s : State) : immLen s.mWidth = BitVec.ofNat 16 (1 + immByteCount s.m) := by
  rw [immLen_mWidth]; cases s.m <;> rfl

theorem immLen_xWidth_ofNat (s : State) : immLen s.xWidth = BitVec.ofNat 16 (1 + immByteCount s.x) := by
  rw [immLen_xWidth]; cases s.x <;> rfl

/-- An instruction that sets `PC` itself. -/
theorem KeepsRare.of_setsPC {i : Instr} {s : State} (hi : setsPC i = true)
    (h : ∃ pc, EndsAt (rareWrites i s.e) s pc (exec i s)) : KeepsRare i s := by
  obtain ⟨pc, ends⟩ := h
  exact ⟨pc, ends, fun hn => absurd hi (by simp [hn])⟩

/-- Every instruction keeps `e`, `K`, `DBR` and `D` but for those that `rareWrites` names, keeps the forcing rule, and moves `PC` by its
length unless `setsPC` names it: by the shape of its meaning. -/
theorem exec_keepsRare (i : Instr) (s : State) : KeepsRare i s := by
  cases i with
  -- Immediate data, and index registers.
  | oraImm _ | andImm _ | eorImm _ | adcImm _ | bitImm _ | ldaImm _ | cmpImm _ | sbcImm _ =>
    exact ⟨_, immM_endsAt (by simp), fun _ => by rw [immLen_mWidth_ofNat]; rfl⟩
  | ldyImm _ | ldxImm _ | cpyImm _ | cpxImm _ =>
    exact ⟨_, immX_endsAt (by simp +contextual), fun _ => by rw [immLen_xWidth_ofNat]; rfl⟩
  | ldyDir _ | ldxDir _ | ldyAbs _ | ldxAbs _ | ldyDirX _ | ldxDirY _ | ldyAbsX _ | ldxAbsY _ | cpyDir _ | cpyAbs _ | cpxDir _
    | cpxAbs _ =>
    exact ⟨_, loadX_endsAt (by simp +contextual), fun _ => rfl⟩
  -- Stores.
  | stzDir _ | stzDirX _ | stzAbs _ | stzAbsX _ | styDir _ | styAbs _ | styDirX _ | stxDir _ | stxAbs _ | stxDirY _ | staStkS _
    | staDir _ | staAbs _ | staLong _ | staDirX _ | staAbsY _ | staAbsX _ | staLongX _ | staDirXInd _ | staDirIndY _ | staDirInd _
    | staStkSIndY _ | staDirLong _ | staDirLongY _ =>
    exact ⟨_, store_endsAt (by simp), fun _ => rfl⟩
  -- Read-modify-write.
  | decDir _ | decAbs _ | decDirX _ | decAbsX _ | incDir _ | incAbs _ | incDirX _ | incAbsX _ =>
    exact ⟨_, stepMem_endsAt, fun _ => rfl⟩
  | aslDir _ | aslAbs _ | aslDirX _ | aslAbsX _ | lsrDir _ | lsrAbs _ | lsrDirX _ | lsrAbsX _ =>
    exact ⟨_, shiftMem_endsAt, fun _ => rfl⟩
  | rolDir _ | rolAbs _ | rolDirX _ | rolAbsX _ =>
    exact ⟨_, shiftMem_endsAt (g := fun w v => rolValue w s.c v), fun _ => rfl⟩
  | rorDir _ | rorAbs _ | rorDirX _ | rorAbsX _ =>
    exact ⟨_, shiftMem_endsAt (g := fun w v => rorValue w s.c v), fun _ => rfl⟩
  | tsbDir _ | tsbAbs _ | trbDir _ | trbAbs _ =>
    exact ⟨_, testAndStore_endsAt, fun _ => rfl⟩
  | aslAcc | lsrAcc =>
    exact ⟨_, shiftAcc_endsAt, fun _ => rfl⟩
  | rolAcc =>
    exact ⟨_, shiftAcc_endsAt (g := fun w v => rolValue w s.c v), fun _ => rfl⟩
  | rorAcc =>
    exact ⟨_, shiftAcc_endsAt (g := fun w v => rorValue w s.c v), fun _ => rfl⟩
  -- Registers and flags, pushes and pulls.
  | clc | cld | cli | clv | sec | sed | sei | incAcc | decAcc | inx | iny | dex | dey | tax | tay | tsx | txa | txs | txy | tya | tyx
    | tcs | tdc | tsc | xba | nop | stp | wai | pha | phx | phy | phb | phk | php | phd | pla | plx | ply | plp =>
    exact ⟨_, Keeps.advances (by simp) 1, fun _ => rfl⟩
  | rep _ | sep _ | wdm _ =>
    exact ⟨_, Keeps.advances (by simp) 2, fun _ => rfl⟩
  | pei _ =>
    exact ⟨_, Keeps.advances (by simp [read16_after]) 2, fun _ => rfl⟩
  | pea _ | per _ =>
    exact ⟨_, Keeps.advances (by simp) 3, fun _ => rfl⟩
  -- The writers of `e`, `DBR` and `D`.
  | xce =>
    exact ⟨_, Keeps.advances (w := { e := true }) (by simp) 1, fun _ => rfl⟩
  | plb =>
    exact ⟨_, Keeps.advances (w := { DBR := true }) (by simp) 1, fun _ => rfl⟩
  | pld =>
    exact ⟨_, Keeps.advances (w := { D := true }) (by simp) 1, fun _ => rfl⟩
  | tcd =>
    exact ⟨_, Keeps.advances (w := { D := true }) (by simp) 1, fun _ => rfl⟩
  | mvn _ _ | mvp _ _ =>
    exact .of_setsPC rfl (blockMove_endsAt rfl)
  -- Branches, jumps, calls and returns.
  | bcc _ | bcs _ | beq _ | bmi _ | bne _ | bpl _ | bra _ | bvc _ | bvs _ =>
    exact .of_setsPC rfl ⟨_, branch8_endsAt⟩
  | brl _ | jmpAbs _ =>
    exact .of_setsPC rfl ⟨_, (Keeps.refl _ s).goesTo _⟩
  | jmpLong _ =>
    exact .of_setsPC rfl ⟨_, ((keeps_setK rfl _).2 (Keeps.refl _ s)).goesTo _⟩
  | jmpAbsInd hhll =>
    exact .of_setsPC rfl ⟨_, Keeps.goesTo (by simp [State.absPointer, read16_after]) _⟩
  | jmpAbsXInd hhll =>
    exact .of_setsPC rfl ⟨_, Keeps.goesTo (by simp [State.absXPointer, read16_after]) _⟩
  | jmpAbsLong hhll =>
    exact .of_setsPC rfl ⟨_, Keeps.goesTo (w := { K := true }) (by simp [State.absLongPointer, read24_after]) _⟩
  | jsrAbs _ =>
    exact .of_setsPC rfl ⟨_, Keeps.goesTo (by simp) _⟩
  | jsrAbsXInd _ =>
    exact .of_setsPC rfl ⟨_, Keeps.goesTo (by simp [State.absXPointer, read16_after]) _⟩
  | jsl _ =>
    exact .of_setsPC rfl ⟨_, Keeps.goesTo (w := { K := true }) (by simp) _⟩
  | rts =>
    exact .of_setsPC rfl ⟨_, Keeps.goesTo (by simp) _⟩
  | rtl =>
    exact .of_setsPC rfl ⟨_, Keeps.goesTo (w := { K := true }) (u := (s.pull24 .new).after.setK _) (by simp) _⟩
  -- Software interrupts and the return from them.
  | brk =>
    exact .of_setsPC rfl (enterInterrupt_endsAt rfl _ _)
  | cop _ =>
    exact .of_setsPC rfl (enterInterrupt_endsAt rfl _ _)
  | rti =>
    exact .of_setsPC rfl (leaveInterrupt_endsAt (fun native => congrArg (!·) native))
  -- ADC, AND, BIT, CMP, EOR, LDA, ORA and SBC in their memory modes read data of `M` bits.
  | _ =>
    exact ⟨_, loadM_endsAt (by simp) (by simp), fun _ => rfl⟩

/-- What an instruction keeps, said of its next state. -/
theorem keeps_of_exec {i : Instr} {s t : State} (h : exec i s = .next t) : Keeps (rareWrites i s.e) s (t.setPC s.PC) := by
  obtain ⟨pc, ends, -⟩ := exec_keepsRare i s
  rw [h] at ends
  exact ends.of_next.1

/-- Where an instruction that R31 does not name leaves `PC`. -/
theorem PC_of_exec {i : Instr} {s t : State} (h : exec i s = .next t) (hi : setsPC i = false) :
    t.PC = s.PC + BitVec.ofNat 16 (instrLen s.m s.x i) := by
  obtain ⟨pc, ends, hpc⟩ := exec_keepsRare i s
  rw [h] at ends
  rw [ends.of_next.2, hpc hi]

/-! ### The RESET sequence (`70_reset_and_hazards.md` R461) -/

/-- The flags that the RESET sequence fixes; the other bits of `P` are free values. -/
theorem resetSequence_flags (s : State) :
    s.resetSequence.m = true ∧ s.resetSequence.x = true ∧ s.resetSequence.d = false ∧ s.resetSequence.i = true := by
  show bitAt (putBit _ _ _) 5 = true ∧ bitAt (putBit _ _ _) 4 = true ∧ bitAt (putBit _ _ _) 3 = false ∧ bitAt (putBit _ _ _) 2 = true
  simp only [bitAt_putBit, Nat.reduceLT, Nat.reduceEqDiff, if_false]
  decide

@[simp] theorem resetSequence_SH (s : State) : s.resetSequence.SH = 0x01#8 := hi8_word _ _
@[simp] theorem resetSequence_XH (s : State) : s.resetSequence.XH = 0x00#8 := hi8_zext16 _
@[simp] theorem resetSequence_YH (s : State) : s.resetSequence.YH = 0x00#8 := hi8_zext16 _

/-- The vector's two reads are all that the sequence does to memory and devices. -/
theorem resetSequence_bus (s : State) :
    s.resetSequence.bus = (s.perform (readsAt [(s.vectorPair resetVector).lo, (s.vectorPair resetVector).hi])).bus := rfl

theorem resetSequence_PC (s : State) : s.resetSequence.PC = s.wordAfter [] (s.vectorPair resetVector) := rfl

/-- RESET makes the forcing rule hold, from any state (R36, R43). -/
theorem forced_resetSequence (s : State) : Forced s.resetSequence := by
  obtain ⟨hm, hx, -, -⟩ := resetSequence_flags s
  simp [Forced, hm, hx]

/-! ### Every step -/

theorem watched_poll (s : State) : s.poll.watched = s.watched := by
  unfold State.poll State.takeEvent
  split <;> rfl

theorem keeps_fetch (w : Writes) (s : State) : Keeps w s s.fetch.after := by
  simp [State.fetch, readCode_after, readByte_after]

/-- Every step runs the RESET sequence, or keeps what one instruction or interrupt keeps, and then changes `e` by XCE only. -/
theorem step_endsAt (s : State) :
    (s.poll.action = .reset ∧ step s = .next s.poll.resetSequence) ∨
      ∃ w pc, EndsAt w s.poll pc (step s) ∧ (w.e = true → s.poll.action = .execute ∧ s.poll.fetch.value = .xce) := by
  unfold step
  dsimp only
  cases s.poll.action with
  | reset => exact .inl ⟨rfl, rfl⟩
  | interrupt k =>
    obtain ⟨pc, ends⟩ := enterInterrupt_endsAt (w := { K := true }) (s := s.poll) rfl k s.poll.PC
    exact .inr ⟨_, pc, ends, nofun⟩
  | wake => exact .inr ⟨{}, s.poll.PC, ⟨s.poll.setRun .running, by simp, rfl⟩, nofun⟩
  | idle => exact .inr ⟨{}, s.poll.PC, (Keeps.refl _ _).goesTo _, nofun⟩
  | execute =>
    obtain ⟨pc, ⟨u, kept, hexec⟩, -⟩ := exec_keepsRare s.poll.fetch.value s.poll.fetch.after
    exact .inr ⟨_, pc, ⟨u, (keeps_fetch _ _).trans kept, hexec⟩, fun hw => ⟨rfl, eq_xce_of_rareWrites hw⟩⟩

/-- Every step keeps the forcing rule (R36, R37). -/
theorem forced_of_step {s t : State} (hf : Forced s) (h : step s = .next t) : Forced t := by
  have polled : Forced s.poll := (keeps_of_watched_eq (w := {}) (watched_poll s)).forced hf
  obtain ⟨-, hreset⟩ | ⟨w, pc, ends, -⟩ := step_endsAt s
  · obtain rfl : t = s.poll.resetSequence := by simpa [h] using hreset
    exact forced_resetSequence _
  · rw [h] at ends
    exact ends.of_next.1.forced polled

/-- Every step keeps the canonical form of memory (log 4). -/
theorem wf_of_step {s t : State} (hwf : Memory.wf s.mem = true) (h : step s = .next t) : Memory.wf t.mem = true := by
  obtain ⟨l, hl⟩ := accessed_of_step h
  obtain ⟨hmem, -, -, -⟩ := bus_eq_iff.1 hl
  rw [hmem]
  exact State.wf_perform (by rwa [poll_mem]) l

end Sys2Proof.Machine
end

section
/-! The statements of the state (`10_state.md`). -/

namespace Sys2Proof.Machine

/-- Settles O28: the forcing rule by what each step keeps, the form of memory because a step makes accesses only. -/
theorem stepKeepsInv : Obligations.StepKeepsInv := by
  rintro s t ⟨hforced, hwf⟩ hstep
  exact ⟨forced_of_step hforced hstep, wf_of_step hwf hstep⟩

/-- Settles O30: an instruction by what it keeps, a step by the action it takes. -/
theorem emulationFlagWriters : Obligations.EmulationFlagWriters := by
  refine ⟨fun i s t h hne => eq_xce_of_rareWrites ((keeps_of_exec h).e.resolve_right hne), fun s t h hne => ?_⟩
  obtain ⟨hreset, -⟩ | ⟨w, pc, ends, hw⟩ := step_endsAt s
  · exact .inl hreset
  · rw [h] at ends
    have kept := ends.of_next.1.e
    rw [poll_e] at kept
    exact .inr (hw (kept.resolve_right hne))

/-- Settles O31: every other instruction keeps both. -/
theorem dataBankAndDirectWriters : Obligations.DataBankAndDirectWriters := by
  intro i s t h
  have kept := keeps_of_exec h
  exact ⟨fun hne => writer_of_rareWrites_DBR (kept.DBR.resolve_right hne),
    fun hne => writer_of_rareWrites_D (kept.D.resolve_right hne)⟩

/-- Settles O32: RTI is among the writers of `K` only when it begins in native mode. -/
theorem programBankWriters : Obligations.ProgramBankWriters := fun _ _ _ h hne =>
  writer_of_rareWrites_K ((keeps_of_exec h).K.resolve_right hne)

/-- Settles O33: an instruction that R31 does not name advances `PC`, which is a 16-bit sum. -/
theorem programCounterAdvances : Obligations.ProgramCounterAdvances := by
  intro i s t h hne
  cases hi : setsPC i with
  | true => exact mem_of_setsPC hi
  | false => exact absurd (by rw [PC_of_exec h hi]; simp) hne

/-- Settles O25: a pending RESET is acted on in every run state, and the sequence makes the vector's two reads and nothing else. -/
theorem resetStep : Obligations.ResetStep := by
  intro s hpending
  have hstep : step s = .next s.poll.resetSequence := by
    unfold step
    dsimp only
    rw [action_of_reset hpending]
  have hvector : s.poll.vectorPair resetVector = s.vectorPair 0x00FFFC#24 := by
    simp [State.vectorPair, resetVector]
  obtain ⟨hm, hx, hd, hi⟩ := resetSequence_flags s.poll
  obtain ⟨hmem, hregions, hlog, -⟩ := bus_eq_iff.1 (resetSequence_bus s.poll)
  rw [State.perform_reads_mem, poll_mem] at hmem
  rw [State.perform_regions, poll_regions] at hregions
  rw [State.perform_deviceLog, hvector] at hlog
  have hpc : s.poll.resetSequence.PC = s.poll.wordAfter [] (s.vectorPair 0x00FFFC#24) := by
    rw [resetSequence_PC, hvector]
  refine ⟨_, hstep, rfl, hm, hx, resetSequence_XH _, resetSequence_YH _, resetSequence_SH _, hi, hd, rfl, rfl, rfl, hpc, rfl, rfl,
    hmem, hregions, hlog, fun a hk => ?_⟩
  rw [State.read_of_ne_device hk, State.read_of_ne_device (by rwa [State.kindAt_congr hregions]), hmem]

/-- Settles O26, by evaluation: the vector is read from memory that lists no cell (log 16). -/
theorem resetValues : Obligations.ResetValues := by
  unfold Obligations.ResetValues
  decide

/-- Settles O27: the forcing rule by evaluation, and no cell is listed. -/
theorem resetSatisfiesInv : Obligations.ResetSatisfiesInv := ⟨by decide, State.reset_wf⟩

end Sys2Proof.Machine
end

section
/-! The statements of memory (`20_memory.md` R60, R73): what the canonical form says of a cell and what a read finds in a list, from
which lists that read alike agree cell by cell; and a stack address in each of its two forms. -/

namespace Sys2Proof.Machine

/-! ### The canonical form determines the list -/

/-- The form of a list with a first cell. -/
theorem Memory.wfFrom_cons {lo a : Nat} {v : Byte} {rest : Memory} :
    Memory.wfFrom lo ((a, v) :: rest) = true ↔
      lo ≤ a ∧ a < 2 ^ 24 ∧ v ≠ Memory.unlisted ∧ Memory.wfFrom (a + 1) rest = true := by
  simp only [Memory.wfFrom, Bool.and_eq_true, decide_eq_true_eq, and_assoc]

@[simp] theorem Memory.read_cons_self (a : Nat) (v : Byte) (rest : Memory) : Memory.read ((a, v) :: rest) a = v := if_pos rfl

theorem Memory.read_cons_of_lt {a b : Nat} (h : a < b) (v : Byte) (rest : Memory) :
    Memory.read ((a, v) :: rest) b = Memory.read rest b := by
  rw [Memory.read, if_neg (by omega), if_neg (by omega)]

/-- An address that reads as something else than an unlisted byte is not below the first cell. -/
theorem Memory.head_le_of_read_ne {lo a b : Nat} {v : Byte} {rest : Memory} (hwf : Memory.wfFrom lo ((a, v) :: rest) = true)
    (hread : Memory.read ((a, v) :: rest) b ≠ Memory.unlisted) : a ≤ b := by
  obtain ⟨-, ha, hv, hrest⟩ := Memory.wfFrom_cons.1 hwf
  have fromHead : Memory.wfFrom a ((a, v) :: rest) = true := Memory.wfFrom_cons.2 ⟨le_rfl, ha, hv, hrest⟩
  exact not_lt.1 fun hlt => hread (Memory.read_below fromHead hlt)

/-- The two lists read alike at every address of the machine. -/
def Memory.ReadAlike (mem mem' : Memory) : Prop := ∀ a < 2 ^ 24, Memory.read mem a = Memory.read mem' a

theorem Memory.ReadAlike.symm {mem mem' : Memory} (h : Memory.ReadAlike mem mem') : Memory.ReadAlike mem' mem :=
  fun a ha => (h a ha).symm

/-- A list of the form with a first cell does not read like the empty list: it differs at that cell. -/
theorem Memory.not_readAlike_nil {lo a : Nat} {v : Byte} {rest : Memory} (hwf : Memory.wfFrom lo ((a, v) :: rest) = true) :
    ¬ Memory.ReadAlike ((a, v) :: rest) [] := by
  obtain ⟨-, ha, hv, -⟩ := Memory.wfFrom_cons.1 hwf
  intro h
  exact hv (by simpa [Memory.read] using h a ha)

/-- The second of two lists that read alike has its first cell no later than the first: the byte there is not an unlisted one. -/
theorem Memory.ReadAlike.head_le {lo a b : Nat} {v w : Byte} {rest rest' : Memory}
    (h : Memory.ReadAlike ((a, v) :: rest) ((b, w) :: rest')) (hwf : Memory.wfFrom lo ((a, v) :: rest) = true)
    (hwf' : Memory.wfFrom lo ((b, w) :: rest') = true) : b ≤ a := by
  obtain ⟨-, ha, hv, -⟩ := Memory.wfFrom_cons.1 hwf
  exact Memory.head_le_of_read_ne hwf' (by rwa [← h a ha, Memory.read_cons_self])

/-- Lists that read alike and begin with the same cell still read alike without it: up to that cell the rest lists nothing. -/
theorem Memory.ReadAlike.tail {a : Nat} {v : Byte} {rest rest' : Memory}
    (h : Memory.ReadAlike ((a, v) :: rest) ((a, v) :: rest')) (hwf : Memory.wfFrom (a + 1) rest = true)
    (hwf' : Memory.wfFrom (a + 1) rest' = true) : Memory.ReadAlike rest rest' := by
  intro b hb
  obtain upTo | past := Nat.lt_or_ge b (a + 1)
  · rw [Memory.read_below hwf upTo, Memory.read_below hwf' upTo]
  · rw [← Memory.read_cons_of_lt past v rest, h b hb, Memory.read_cons_of_lt past]

/-- The form is canonical from every address on. -/
theorem Memory.ReadAlike.eq {lo : Nat} {mem mem' : Memory} (h : Memory.ReadAlike mem mem')
    (hwf : Memory.wfFrom lo mem = true) (hwf' : Memory.wfFrom lo mem' = true) : mem = mem' := by
  induction mem generalizing lo mem' with
  | nil =>
    cases mem' with
    | nil => rfl
    | cons cell' rest' => exact absurd h.symm (Memory.not_readAlike_nil hwf')
  | cons cell rest ih =>
    obtain ⟨a, v⟩ := cell
    cases mem' with
    | nil => exact absurd h (Memory.not_readAlike_nil hwf)
    | cons cell' rest' =>
      obtain ⟨b, w⟩ := cell'
      obtain rfl : a = b := le_antisymm (h.symm.head_le hwf' hwf) (h.head_le hwf hwf')
      obtain ⟨-, ha, -, hrest⟩ := Memory.wfFrom_cons.1 hwf
      obtain ⟨-, -, -, hrest'⟩ := Memory.wfFrom_cons.1 hwf'
      obtain rfl : v = w := by simpa using h a ha
      rw [ih (h.tail hrest hrest') hrest hrest']

/-- Settles O6: an address of 24 bits is a number below `2^24`, and the form is canonical. -/
theorem memoryIsExtensional : Obligations.MemoryIsExtensional := by
  intro mem mem' hwf hwf' hread
  have alike : Memory.ReadAlike mem mem' := fun a ha => hread (BitVec.ofNatLT a ha)
  exact alike.eq hwf hwf'

/-! ### Stack addresses -/

theorem stackWraps_iff {s : State} {age : Age} : s.stackWraps age = true ↔ s.e = true ∧ age = .old := by
  simp [State.stackWraps]

/-- In page 1 the distance is added to `SL` in 8-bit arithmetic (R73). -/
theorem stackAddr_of_wraps {s : State} {age : Age} (h : s.stackWraps age = true) (k : Word) :
    s.stackAddr age k = addr 0x00#8 (word 0x01#8 (s.SL + lo8 k)) := if_pos h

/-- Elsewhere the distance is added to `S` in 16-bit arithmetic, in bank 0 (R73). -/
theorem stackAddr_of_not_wraps {s : State} {age : Age} (h : ¬ s.stackWraps age = true) (k : Word) :
    s.stackAddr age k = addr 0x00#8 (s.S + k) := if_neg h

/-- Settles O13: the two forms as numbers; `SL` takes the low byte of the distance, which the modulus does not see. -/
theorem stackAddresses : Obligations.StackAddresses := by
  intro s age k
  rw [← stackWraps_iff]
  refine ⟨fun wraps => ?_, fun flat => ?_⟩
  · simp [stackAddr_of_wraps wraps]
  · simp [stackAddr_of_not_wraps flat]

end Sys2Proof.Machine
end

section
/-! The statements of the encoding (`30_encoding.md`): what the first bytes of a list say, that encoding an instruction and reading
it again gives it back, and that what is read is spelled by the bytes it was read from. -/

namespace Sys2Proof.Machine

/-! ### Operands and their bytes (R92, R93) -/

theorem addr_bankOf_offsetOf (a : Addr) : addr (bankOf a) (offsetOf a) = a := by
  apply BitVec.eq_of_toNat_eq
  simp [bankOf, offsetOf, Nat.shiftRight_eq_div_pow]
  omega

/-- An immediate read from two bytes is written as the first of them when it is narrow, and as both when it is wide. -/
theorem immBytes_immOperand_prefix (flag : Bool) (b1 b2 b3 : Byte) :
    immBytes flag (immOperand flag b1 b2) <+: [b1, b2, b3] := by
  cases flag <;> simp [immBytes, immOperand]

theorem immFits_immOperand (flag : Bool) (b1 b2 : Byte) : immFits flag (immOperand flag b1 b2) = true := by
  cases flag <;> simp [immFits, immOperand]

/-- A word without a high byte is its low byte extended. -/
theorem zext16_lo8 {v : Word} (h : hi8 v = 0x00#8) : zext16 (lo8 v) = v := by
  apply BitVec.eq_of_toNat_eq
  have hhi := congrArg BitVec.toNat h
  simp at hhi ⊢
  omega

/-- An immediate that fits its width is read back from its bytes, whatever follows them. -/
theorem immOperand_immBytes {flag : Bool} {v : Word} (h : immFits flag v = true) (rest : List Byte) :
    immOperand flag ((immBytes flag v ++ rest).getD 0 0) ((immBytes flag v ++ rest).getD 1 0) = v := by
  cases flag with
  | false => exact word_hi8_lo8 v
  | true => exact zext16_lo8 (by simpa [immFits] using h)

/-! ### Lengths (R91, R93) -/

/-- The encoder writes as many bytes as the length says (R91, R93). -/
theorem encode_length (m x : Bool) (i : Instr) : (encode m x i).length = instrLen m x i := by
  cases i with
  | oraImm v | andImm v | eorImm v | adcImm v | bitImm v | ldaImm v | cmpImm v | sbcImm v =>
    cases m <;> rfl
  | ldyImm v | ldxImm v | cpyImm v | cpxImm v =>
    cases x <;> rfl
  | _ => rfl

theorem instrLen_of_followsM {i : Instr} (h : immCase i = some .followsM) (m x : Bool) :
    instrLen m x i = if m then 2 else 3 := by
  cases m <;> simp [instrLen, h, immByteCount]

theorem instrLen_of_followsX {i : Instr} (h : immCase i = some .followsX) (m x : Bool) :
    instrLen m x i = if x then 2 else 3 := by
  cases x <;> simp [instrLen, h, immByteCount]

/-- Only the twelve immediates of cases A and B have a length that the flags decide (R93, R94). -/
theorem instrLen_eq_of_not_widthImmediate {i : Instr}
    (h : ∀ v, i ∉ [Instr.oraImm v, .andImm v, .eorImm v, .adcImm v, .bitImm v, .ldaImm v, .cmpImm v, .sbcImm v,
      .ldyImm v, .ldxImm v, .cpyImm v, .cpxImm v]) (m x m' x' : Bool) : instrLen m x i = instrLen m' x' i := by
  cases i with
  | oraImm v | andImm v | eorImm v | adcImm v | bitImm v | ldaImm v | cmpImm v | sbcImm v
  | ldyImm v | ldxImm v | cpyImm v | cpxImm v =>
    exact absurd (by simp) (h v)
  | _ => rfl

/-- Settles O4: each immediate by the case of R93 that it is in. -/
theorem immediateLengths : Obligations.ImmediateLengths := by
  refine ⟨fun m x v => ⟨fun i hi => ?_, fun i hi => ?_, rfl, rfl⟩, fun m x b i hi => ?_, fun m x m' x' i hi => ?_⟩
  · refine instrLen_of_followsM ?_ m x
    simp only [List.mem_cons, List.not_mem_nil, or_false] at hi
    obtain rfl | rfl | rfl | rfl | rfl | rfl | rfl | rfl := hi <;> rfl
  · refine instrLen_of_followsX ?_ m x
    simp only [List.mem_cons, List.not_mem_nil, or_false] at hi
    obtain rfl | rfl | rfl | rfl := hi <;> rfl
  · simp only [List.mem_cons, List.not_mem_nil, or_false] at hi
    obtain rfl | rfl | rfl | rfl := hi <;> rfl
  · exact instrLen_eq_of_not_widthImmediate hi m x m' x'

/-! ### The instruction that a list of bytes begins with -/

/-- The instruction that a list of bytes begins with, whether or not its bytes are all there: the decoder without its check for
truncation (`decode_eq_ok_iff`). -/
def leadingInstr (m x : Bool) : List Byte → Instr
  | [] => decodeOpcode m x 0 0 0 0
  | op :: rest => decodeOpcode m x op (rest.getD 0 0) (rest.getD 1 0) (rest.getD 2 0)

/-- Decoding answers the leading instruction and the bytes after it, when its bytes are all there. -/
theorem decode_eq_ok_iff {m x : Bool} {bytes rest : List Byte} {i : Instr} :
    decode m x bytes = .ok (i, rest) ↔
      leadingInstr m x bytes = i ∧ instrLen m x i ≤ bytes.length ∧ bytes.drop (instrLen m x i) = rest := by
  cases bytes with
  | nil =>
    refine iff_of_false (by simp [decode]) fun ⟨_, hlen, _⟩ => ?_
    exact absurd (instrLen_bounds m x i).1 (by simp at hlen; omega)
  | cons op tail =>
    have drop_cons (j : Instr) : (op :: tail).drop (instrLen m x j) = tail.drop (instrLen m x j - 1) := by
      rw [List.drop_cons (instrLen_bounds m x j).1]
    have decode_cons : decode m x (op :: tail) =
        if tail.length + 1 < instrLen m x (leadingInstr m x (op :: tail)) then .error .truncated
        else .ok (leadingInstr m x (op :: tail), tail.drop (instrLen m x (leadingInstr m x (op :: tail)) - 1)) := rfl
    rw [decode_cons, List.length_cons]
    constructor
    · intro h
      split at h
      · cases h
      · next hlen =>
        cases h
        exact ⟨rfl, not_lt.1 hlen, drop_cons _⟩
    · rintro ⟨rfl, hlen, rfl⟩
      rw [drop_cons, if_neg (not_lt.2 hlen)]

/-! ### From the instruction to its bytes and back -/

/-! An instruction of an operand that the decoder joins from the bytes that the encoder took it apart into. -/

theorem con_joined_word (c : Word → Instr) (v : Word) : c (word (hi8 v) (lo8 v)) = c v := by rw [word_hi8_lo8]

theorem con_joined_addr (c : Addr → Instr) (a : Addr) :
    c (addr (bankOf a) (word (hi8 (offsetOf a)) (lo8 (offsetOf a)))) = c a := by
  rw [word_hi8_lo8, addr_bankOf_offsetOf]

theorem con_joined_imm (c : Word → Instr) {flag : Bool} {v : Word} (h : immFits flag v = true) (rest : List Byte) :
    c (immOperand flag ((immBytes flag v ++ rest).getD 0 0) ((immBytes flag v ++ rest).getD 1 0)) = c v := by
  rw [immOperand_immBytes h]

/-- A well-formed instruction is the one that its encoding begins with, whatever follows. -/
theorem leadingInstr_encode {m x : Bool} {i : Instr} (h : i.wf m x = true) (rest : List Byte) :
    leadingInstr m x (encode m x i ++ rest) = i := by
  cases i with
  | oraImm v | andImm v | eorImm v | adcImm v | bitImm v | ldaImm v | cmpImm v | sbcImm v =>
    exact con_joined_imm _ h rest
  | ldyImm v | ldxImm v | cpyImm v | cpxImm v =>
    exact con_joined_imm _ h rest
  | tsbAbs v | oraAbs v | aslAbs v | oraAbsY v | trbAbs v | oraAbsX v | aslAbsX v | jsrAbs v | bitAbs v | andAbs v | rolAbs v
  | andAbsY v | bitAbsX v | andAbsX v | rolAbsX v | jmpAbs v | eorAbs v | lsrAbs v | eorAbsY v | eorAbsX v | lsrAbsX v | per v
  | jmpAbsInd v | adcAbs v | rorAbs v | adcAbsY v | jmpAbsXInd v | adcAbsX v | rorAbsX v | brl v | styAbs v | staAbs v
  | stxAbs v | staAbsY v | stzAbs v | staAbsX v | stzAbsX v | ldyAbs v | ldaAbs v | ldxAbs v | ldaAbsY v | ldyAbsX v | ldaAbsX v
  | ldxAbsY v | cpyAbs v | cmpAbs v | decAbs v | cmpAbsY v | jmpAbsLong v | cmpAbsX v | decAbsX v | cpxAbs v | sbcAbs v
  | incAbs v | pea v | sbcAbsY v | jsrAbsXInd v | sbcAbsX v | incAbsX v =>
    exact con_joined_word _ v
  | oraLong a | oraLongX a | jsl a | andLong a | andLongX a | eorLong a | jmpLong a | eorLongX a | adcLong a | adcLongX a
  | staLong a | staLongX a | ldaLong a | ldaLongX a | cmpLong a | cmpLongX a | sbcLong a | sbcLongX a =>
    exact con_joined_addr _ a
  | _ => rfl

/-- Settles O1: the encoding is as long as the instruction, which is the one that it begins with. -/
theorem decodeOfEncode : Obligations.DecodeOfEncode := by
  intro m x i rest h
  rw [decode_eq_ok_iff, ← encode_length]
  exact ⟨leadingInstr_encode h rest, by simp, by simp⟩

/-! ### From the bytes to the instruction and back -/

/-- The bytes given begin with the encoding of `i`, which is well formed. -/
def Spelled (m x : Bool) (bytes : List Byte) (i : Instr) : Prop := encode m x i <+: bytes ∧ i.wf m x = true

/-! An opcode of each form of operand that is joined from bytes; the hypotheses are its lines in the encoder and in the check of
well-formedness. -/

section
variable {m x : Bool} {op b1 b2 b3 : Byte}

theorem spelled_word {c : Word → Instr} (bytes : ∀ v, encode m x (c v) = [op, lo8 v, hi8 v]) (wf : ∀ v, (c v).wf m x = true) :
    Spelled m x [op, b1, b2, b3] (c (word b2 b1)) := by
  simp [Spelled, bytes, wf]

theorem spelled_long {c : Addr → Instr}
    (bytes : ∀ a, encode m x (c a) = [op, lo8 (offsetOf a), hi8 (offsetOf a), bankOf a]) (wf : ∀ a, (c a).wf m x = true) :
    Spelled m x [op, b1, b2, b3] (c (addr b3 (word b2 b1))) := by
  simp [Spelled, bytes, wf]

theorem spelled_imm {c : Word → Instr} {flag : Bool} (bytes : ∀ v, encode m x (c v) = op :: immBytes flag v)
    (wf : ∀ v, (c v).wf m x = immFits flag v) : Spelled m x [op, b1, b2, b3] (c (immOperand flag b1 b2)) := by
  simp [Spelled, bytes, wf, immBytes_immOperand_prefix, immFits_immOperand]

end

/-! The sixteen rows of the opcode map (R96) by their low digit: immediates, words and long addresses, and then the opcodes whose
operands are bytes as they stand, or none. -/

theorem spelled_row0 (m x : Bool) (b1 b2 b3 : Byte) {low : Nat} (h : low < 16) :
    Spelled m x [BitVec.ofNat 8 (16 * 0 + low), b1, b2, b3] (decodeRow0 m b1 b2 b3 low) := by
  match low, h with
  | 9, _ => exact spelled_imm (fun _ => rfl) fun _ => rfl
  | 12, _ | 13, _ | 14, _ => exact spelled_word (fun _ => rfl) fun _ => rfl
  | 15, _ => exact spelled_long (fun _ => rfl) fun _ => rfl
  | 0, _ | 1, _ | 2, _ | 3, _ | 4, _ | 5, _ | 6, _ | 7, _ | 8, _ | 10, _ | 11, _ => exact ⟨⟨_, rfl⟩, rfl⟩
  | _ + 16, h => exact absurd h (by omega)

theorem spelled_row1 (m x : Bool) (b1 b2 b3 : Byte) {low : Nat} (h : low < 16) :
    Spelled m x [BitVec.ofNat 8 (16 * 1 + low), b1, b2, b3] (decodeRow1 b1 b2 b3 low) := by
  match low, h with
  | 9, _ | 12, _ | 13, _ | 14, _ => exact spelled_word (fun _ => rfl) fun _ => rfl
  | 15, _ => exact spelled_long (fun _ => rfl) fun _ => rfl
  | 0, _ | 1, _ | 2, _ | 3, _ | 4, _ | 5, _ | 6, _ | 7, _ | 8, _ | 10, _ | 11, _ => exact ⟨⟨_, rfl⟩, rfl⟩
  | _ + 16, h => exact absurd h (by omega)

theorem spelled_row2 (m x : Bool) (b1 b2 b3 : Byte) {low : Nat} (h : low < 16) :
    Spelled m x [BitVec.ofNat 8 (16 * 2 + low), b1, b2, b3] (decodeRow2 m b1 b2 b3 low) := by
  match low, h with
  | 9, _ => exact spelled_imm (fun _ => rfl) fun _ => rfl
  | 0, _ | 12, _ | 13, _ | 14, _ => exact spelled_word (fun _ => rfl) fun _ => rfl
  | 2, _ | 15, _ => exact spelled_long (fun _ => rfl) fun _ => rfl
  | 1, _ | 3, _ | 4, _ | 5, _ | 6, _ | 7, _ | 8, _ | 10, _ | 11, _ => exact ⟨⟨_, rfl⟩, rfl⟩
  | _ + 16, h => exact absurd h (by omega)

theorem spelled_row3 (m x : Bool) (b1 b2 b3 : Byte) {low : Nat} (h : low < 16) :
    Spelled m x [BitVec.ofNat 8 (16 * 3 + low), b1, b2, b3] (decodeRow3 b1 b2 b3 low) := by
  match low, h with
  | 9, _ | 12, _ | 13, _ | 14, _ => exact spelled_word (fun _ => rfl) fun _ => rfl
  | 15, _ => exact spelled_long (fun _ => rfl) fun _ => rfl
  | 0, _ | 1, _ | 2, _ | 3, _ | 4, _ | 5, _ | 6, _ | 7, _ | 8, _ | 10, _ | 11, _ => exact ⟨⟨_, rfl⟩, rfl⟩
  | _ + 16, h => exact absurd h (by omega)

theorem spelled_row4 (m x : Bool) (b1 b2 b3 : Byte) {low : Nat} (h : low < 16) :
    Spelled m x [BitVec.ofNat 8 (16 * 4 + low), b1, b2, b3] (decodeRow4 m b1 b2 b3 low) := by
  match low, h with
  | 9, _ => exact spelled_imm (fun _ => rfl) fun _ => rfl
  | 12, _ | 13, _ | 14, _ => exact spelled_word (fun _ => rfl) fun _ => rfl
  | 15, _ => exact spelled_long (fun _ => rfl) fun _ => rfl
  | 0, _ | 1, _ | 2, _ | 3, _ | 4, _ | 5, _ | 6, _ | 7, _ | 8, _ | 10, _ | 11, _ => exact ⟨⟨_, rfl⟩, rfl⟩
  | _ + 16, h => exact absurd h (by omega)

theorem spelled_row5 (m x : Bool) (b1 b2 b3 : Byte) {low : Nat} (h : low < 16) :
    Spelled m x [BitVec.ofNat 8 (16 * 5 + low), b1, b2, b3] (decodeRow5 b1 b2 b3 low) := by
  match low, h with
  | 9, _ | 13, _ | 14, _ => exact spelled_word (fun _ => rfl) fun _ => rfl
  | 12, _ | 15, _ => exact spelled_long (fun _ => rfl) fun _ => rfl
  | 0, _ | 1, _ | 2, _ | 3, _ | 4, _ | 5, _ | 6, _ | 7, _ | 8, _ | 10, _ | 11, _ => exact ⟨⟨_, rfl⟩, rfl⟩
  | _ + 16, h => exact absurd h (by omega)

theorem spelled_row6 (m x : Bool) (b1 b2 b3 : Byte) {low : Nat} (h : low < 16) :
    Spelled m x [BitVec.ofNat 8 (16 * 6 + low), b1, b2, b3] (decodeRow6 m b1 b2 b3 low) := by
  match low, h with
  | 9, _ => exact spelled_imm (fun _ => rfl) fun _ => rfl
  | 2, _ | 12, _ | 13, _ | 14, _ => exact spelled_word (fun _ => rfl) fun _ => rfl
  | 15, _ => exact spelled_long (fun _ => rfl) fun _ => rfl
  | 0, _ | 1, _ | 3, _ | 4, _ | 5, _ | 6, _ | 7, _ | 8, _ | 10, _ | 11, _ => exact ⟨⟨_, rfl⟩, rfl⟩
  | _ + 16, h => exact absurd h (by omega)

theorem spelled_row7 (m x : Bool) (b1 b2 b3 : Byte) {low : Nat} (h : low < 16) :
    Spelled m x [BitVec.ofNat 8 (16 * 7 + low), b1, b2, b3] (decodeRow7 b1 b2 b3 low) := by
  match low, h with
  | 9, _ | 12, _ | 13, _ | 14, _ => exact spelled_word (fun _ => rfl) fun _ => rfl
  | 15, _ => exact spelled_long (fun _ => rfl) fun _ => rfl
  | 0, _ | 1, _ | 2, _ | 3, _ | 4, _ | 5, _ | 6, _ | 7, _ | 8, _ | 10, _ | 11, _ => exact ⟨⟨_, rfl⟩, rfl⟩
  | _ + 16, h => exact absurd h (by omega)

theorem spelled_row8 (m x : Bool) (b1 b2 b3 : Byte) {low : Nat} (h : low < 16) :
    Spelled m x [BitVec.ofNat 8 (16 * 8 + low), b1, b2, b3] (decodeRow8 m b1 b2 b3 low) := by
  match low, h with
  | 9, _ => exact spelled_imm (fun _ => rfl) fun _ => rfl
  | 2, _ | 12, _ | 13, _ | 14, _ => exact spelled_word (fun _ => rfl) fun _ => rfl
  | 15, _ => exact spelled_long (fun _ => rfl) fun _ => rfl
  | 0, _ | 1, _ | 3, _ | 4, _ | 5, _ | 6, _ | 7, _ | 8, _ | 10, _ | 11, _ => exact ⟨⟨_, rfl⟩, rfl⟩
  | _ + 16, h => exact absurd h (by omega)

theorem spelled_row9 (m x : Bool) (b1 b2 b3 : Byte) {low : Nat} (h : low < 16) :
    Spelled m x [BitVec.ofNat 8 (16 * 9 + low), b1, b2, b3] (decodeRow9 b1 b2 b3 low) := by
  match low, h with
  | 9, _ | 12, _ | 13, _ | 14, _ => exact spelled_word (fun _ => rfl) fun _ => rfl
  | 15, _ => exact spelled_long (fun _ => rfl) fun _ => rfl
  | 0, _ | 1, _ | 2, _ | 3, _ | 4, _ | 5, _ | 6, _ | 7, _ | 8, _ | 10, _ | 11, _ => exact ⟨⟨_, rfl⟩, rfl⟩
  | _ + 16, h => exact absurd h (by omega)

theorem spelled_rowA (m x : Bool) (b1 b2 b3 : Byte) {low : Nat} (h : low < 16) :
    Spelled m x [BitVec.ofNat 8 (16 * 10 + low), b1, b2, b3] (decodeRowA m x b1 b2 b3 low) := by
  match low, h with
  | 0, _ | 2, _ | 9, _ => exact spelled_imm (fun _ => rfl) fun _ => rfl
  | 12, _ | 13, _ | 14, _ => exact spelled_word (fun _ => rfl) fun _ => rfl
  | 15, _ => exact spelled_long (fun _ => rfl) fun _ => rfl
  | 1, _ | 3, _ | 4, _ | 5, _ | 6, _ | 7, _ | 8, _ | 10, _ | 11, _ => exact ⟨⟨_, rfl⟩, rfl⟩
  | _ + 16, h => exact absurd h (by omega)

theorem spelled_rowB (m x : Bool) (b1 b2 b3 : Byte) {low : Nat} (h : low < 16) :
    Spelled m x [BitVec.ofNat 8 (16 * 11 + low), b1, b2, b3] (decodeRowB b1 b2 b3 low) := by
  match low, h with
  | 9, _ | 12, _ | 13, _ | 14, _ => exact spelled_word (fun _ => rfl) fun _ => rfl
  | 15, _ => exact spelled_long (fun _ => rfl) fun _ => rfl
  | 0, _ | 1, _ | 2, _ | 3, _ | 4, _ | 5, _ | 6, _ | 7, _ | 8, _ | 10, _ | 11, _ => exact ⟨⟨_, rfl⟩, rfl⟩
  | _ + 16, h => exact absurd h (by omega)

theorem spelled_rowC (m x : Bool) (b1 b2 b3 : Byte) {low : Nat} (h : low < 16) :
    Spelled m x [BitVec.ofNat 8 (16 * 12 + low), b1, b2, b3] (decodeRowC m x b1 b2 b3 low) := by
  match low, h with
  | 0, _ | 9, _ => exact spelled_imm (fun _ => rfl) fun _ => rfl
  | 12, _ | 13, _ | 14, _ => exact spelled_word (fun _ => rfl) fun _ => rfl
  | 15, _ => exact spelled_long (fun _ => rfl) fun _ => rfl
  | 1, _ | 2, _ | 3, _ | 4, _ | 5, _ | 6, _ | 7, _ | 8, _ | 10, _ | 11, _ => exact ⟨⟨_, rfl⟩, rfl⟩
  | _ + 16, h => exact absurd h (by omega)

theorem spelled_rowD (m x : Bool) (b1 b2 b3 : Byte) {low : Nat} (h : low < 16) :
    Spelled m x [BitVec.ofNat 8 (16 * 13 + low), b1, b2, b3] (decodeRowD b1 b2 b3 low) := by
  match low, h with
  | 9, _ | 12, _ | 13, _ | 14, _ => exact spelled_word (fun _ => rfl) fun _ => rfl
  | 15, _ => exact spelled_long (fun _ => rfl) fun _ => rfl
  | 0, _ | 1, _ | 2, _ | 3, _ | 4, _ | 5, _ | 6, _ | 7, _ | 8, _ | 10, _ | 11, _ => exact ⟨⟨_, rfl⟩, rfl⟩
  | _ + 16, h => exact absurd h (by omega)

theorem spelled_rowE (m x : Bool) (b1 b2 b3 : Byte) {low : Nat} (h : low < 16) :
    Spelled m x [BitVec.ofNat 8 (16 * 14 + low), b1, b2, b3] (decodeRowE m x b1 b2 b3 low) := by
  match low, h with
  | 0, _ | 9, _ => exact spelled_imm (fun _ => rfl) fun _ => rfl
  | 12, _ | 13, _ | 14, _ => exact spelled_word (fun _ => rfl) fun _ => rfl
  | 15, _ => exact spelled_long (fun _ => rfl) fun _ => rfl
  | 1, _ | 2, _ | 3, _ | 4, _ | 5, _ | 6, _ | 7, _ | 8, _ | 10, _ | 11, _ => exact ⟨⟨_, rfl⟩, rfl⟩
  | _ + 16, h => exact absurd h (by omega)

theorem spelled_rowF (m x : Bool) (b1 b2 b3 : Byte) {low : Nat} (h : low < 16) :
    Spelled m x [BitVec.ofNat 8 (16 * 15 + low), b1, b2, b3] (decodeRowF b1 b2 b3 low) := by
  match low, h with
  | 4, _ | 9, _ | 12, _ | 13, _ | 14, _ => exact spelled_word (fun _ => rfl) fun _ => rfl
  | 15, _ => exact spelled_long (fun _ => rfl) fun _ => rfl
  | 0, _ | 1, _ | 2, _ | 3, _ | 5, _ | 6, _ | 7, _ | 8, _ | 10, _ | 11, _ => exact ⟨⟨_, rfl⟩, rfl⟩
  | _ + 16, h => exact absurd h (by omega)

/-- Every opcode with its operand bytes spells the instruction that the decoder takes from them. -/
theorem spelled_decodeOpcode (m x : Bool) (op b1 b2 b3 : Byte) :
    Spelled m x [op, b1, b2, b3] (decodeOpcode m x op b1 b2 b3) := by
  have digits : op = BitVec.ofNat 8 (16 * (op.toNat / 16) + op.toNat % 16) := by simp [Nat.div_add_mod]
  have hhigh : op.toNat / 16 < 16 := by omega
  have hlow : op.toNat % 16 < 16 := by omega
  unfold decodeOpcode
  dsimp only
  generalize op.toNat / 16 = high at *
  generalize op.toNat % 16 = low at *
  subst digits
  interval_cases high
  exacts [spelled_row0 m x b1 b2 b3 hlow, spelled_row1 m x b1 b2 b3 hlow, spelled_row2 m x b1 b2 b3 hlow,
    spelled_row3 m x b1 b2 b3 hlow, spelled_row4 m x b1 b2 b3 hlow, spelled_row5 m x b1 b2 b3 hlow,
    spelled_row6 m x b1 b2 b3 hlow, spelled_row7 m x b1 b2 b3 hlow, spelled_row8 m x b1 b2 b3 hlow,
    spelled_row9 m x b1 b2 b3 hlow, spelled_rowA m x b1 b2 b3 hlow, spelled_rowB m x b1 b2 b3 hlow,
    spelled_rowC m x b1 b2 b3 hlow, spelled_rowD m x b1 b2 b3 hlow, spelled_rowE m x b1 b2 b3 hlow,
    spelled_rowF m x b1 b2 b3 hlow]

/-- The decoder looks at the first four bytes at most, and takes bytes that are not there as zero. -/
theorem operands_prefix (op : Byte) (tail : List Byte) :
    [op, tail.getD 0 0, tail.getD 1 0, tail.getD 2 0] <+: (op :: tail) ++ [0, 0, 0] := by
  match tail with
  | [] | [_] | [_, _] | _ :: _ :: _ :: _ => simp

/-- A list of bytes spells the instruction that it begins with, when its bytes are all there. -/
theorem spelled_leadingInstr {m x : Bool} {bytes : List Byte} (h : instrLen m x (leadingInstr m x bytes) ≤ bytes.length) :
    Spelled m x bytes (leadingInstr m x bytes) := by
  cases bytes with
  | nil => exact absurd h (Nat.not_le.2 (instrLen_bounds _ _ _).1)
  | cons op tail =>
    obtain ⟨spelled, wf⟩ := spelled_decodeOpcode m x op (tail.getD 0 0) (tail.getD 1 0) (tail.getD 2 0)
    rw [← encode_length] at h
    exact ⟨List.prefix_of_prefix_length_le (spelled.trans (operands_prefix op tail)) (List.prefix_append _ _) h, wf⟩

/-- Settles O2: an instruction whose bytes are all there is spelled by them. -/
theorem encodeOfDecode : Obligations.EncodeOfDecode := by
  intro m x bytes rest i h
  obtain ⟨rfl, hlen, rfl⟩ := decode_eq_ok_iff.1 h
  obtain ⟨spelled, wf⟩ := spelled_leadingInstr hlen
  rw [← encode_length]
  exact ⟨List.prefix_iff_eq_append.1 spelled, wf⟩

/-- Settles O3: four bytes are enough for the longest instruction. -/
theorem everyOpcodeDecodes : Obligations.EveryOpcodeDecodes := by
  intro m x op b1 b2 b3 rest
  have bounds := instrLen_bounds m x (leadingInstr m x (op :: b1 :: b2 :: b3 :: rest))
  exact ⟨_, _, decode_eq_ok_iff.2 ⟨rfl, bounds.2.trans (by simp), rfl⟩, bounds⟩

/-- Settles O5, by evaluation of the decoder. -/
theorem specWordsDecode : Obligations.SpecWordsDecode := by
  unfold Obligations.SpecWordsDecode
  decide

/-! ### Reading the instruction at `K:PC` -/

theorem codeReads_eq_readsFrom (s : State) (n : Nat) : s.codeReads n = s.readsFrom 0 n := by
  simp [State.codeReads, State.readsFrom, State.codeAddr]

theorem codeBytes_eq_readCode (s : State) (n : Nat) : s.codeBytes n = (s.readCode 0 n).value := by
  simp [readCode_value, State.codeBytes, codeReads_eq_readsFrom, State.codeAddr]

@[simp] theorem codeBytes_length (s : State) (n : Nat) : (s.codeBytes n).length = n := by simp [State.codeBytes]

/-- The opcode is the byte at `K:PC`. -/
theorem codeBytes_succ (s : State) (n : Nat) : ∃ operands, s.codeBytes (n + 1) = s.read (s.codeAddr 0) :: operands :=
  ⟨_, codeBytes_eq_readCode s (n + 1)⟩

theorem instrLen_leadingInstr (m x : Bool) (op : Byte) (tail : List Byte) :
    instrLen m x (leadingInstr m x (op :: tail)) = opcodeLen m x op := opcodeLen_eq ..

/-- The fetch reads as many bytes as its opcode calls for and gives the instruction that they begin with. -/
theorem fetch_eq {s : State} {n : Nat} (h : opcodeLen s.m s.x (s.read (s.codeAddr 0)) = n) :
    s.fetch = { value := leadingInstr s.m s.x (s.codeBytes n), after := s.perform (s.codeReads n) } := by
  obtain ⟨k, rfl⟩ : ∃ k, n = k + 1 := Nat.exists_eq_add_of_le' (h ▸ (instrLen_bounds _ _ _).1)
  have operandCount : opcodeLen s.m s.x (s.readByte (s.codeAddr 0)).value - 1 = k := Nat.sub_eq_of_eq_add h
  rw [codeReads_eq_readsFrom, codeBytes_eq_readCode, ← readCode_after]
  unfold State.fetch
  dsimp only
  rw [operandCount]
  rfl

theorem instrLen_fetch (s : State) : instrLen s.m s.x s.fetch.value = opcodeLen s.m s.x (s.read (s.codeAddr 0)) :=
  opcodeLen_eq ..

/-- Bytes at `K:PC` that are an instruction with no byte over are what the fetch reads. -/
theorem fetch_of_decode {s : State} {n : Nat} {i : Instr} (h : decode s.m s.x (s.codeBytes n) = .ok (i, [])) :
    s.fetch = { value := i, after := s.perform (s.codeReads n) } := by
  obtain ⟨rfl, enough, noneOver⟩ := decode_eq_ok_iff.1 h
  rw [List.drop_eq_nil_iff] at noneOver
  rw [codeBytes_length] at enough noneOver
  refine fetch_eq ?_
  cases n with
  | zero => exact absurd enough (Nat.not_le.2 (instrLen_bounds _ _ _).1)
  | succ k =>
    obtain ⟨operands, bytes⟩ := codeBytes_succ s k
    rw [bytes, instrLen_leadingInstr] at enough noneOver
    omega

/-- The bytes of the instruction that the fetch gives, which decode to it. -/
theorem decode_fetch (s : State) :
    decode s.m s.x (s.codeBytes (instrLen s.m s.x s.fetch.value)) = .ok (s.fetch.value, []) := by
  have value : s.fetch.value = leadingInstr s.m s.x (s.codeBytes (instrLen s.m s.x s.fetch.value)) :=
    congrArg Reading.value (fetch_eq (instrLen_fetch s).symm)
  exact decode_eq_ok_iff.2 ⟨value.symm, by simp, by simp⟩

/-- An opcode without operand bytes is the only byte read. -/
theorem fetch_of_implied {s : State} {op : Byte} (hop : s.read (addr s.K s.PC) = op) {i : Instr}
    (hi : ∀ b1 b2 b3, decodeOpcode s.m s.x op b1 b2 b3 = i) (hlen : opcodeLen s.m s.x op = 1) :
    s.fetch.value = i ∧ s.fetch.after = s.perform [.read (addr s.K s.PC)] := by
  subst hop
  have start : s.codeAddr 0 = addr s.K s.PC := by simp [State.codeAddr]
  rw [fetch_eq (start ▸ hlen)]
  simp [State.codeBytes, State.codeReads, leadingInstr, hi]

/-- An opcode with one operand byte has that byte read after it. -/
theorem fetch_of_byteOperand {s : State} {op : Byte} (hop : s.read (addr s.K s.PC) = op) {c : Byte → Instr}
    (hc : ∀ b1 b2 b3, decodeOpcode s.m s.x op b1 b2 b3 = c b1) (hlen : opcodeLen s.m s.x op = 2) :
    s.fetch.value = c (s.readAfter [.read (addr s.K s.PC)] (addr s.K (s.PC + 1))) ∧
      s.fetch.after = s.perform [.read (addr s.K s.PC), .read (addr s.K (s.PC + 1))] := by
  subst hop
  have start : s.codeAddr 0 = addr s.K s.PC := by simp [State.codeAddr]
  rw [fetch_eq (start ▸ hlen)]
  simp [State.codeBytes, State.codeReads, leadingInstr, hc, List.range_succ]

/-- Settles O15: `BRK` has no operand byte in the opcode map, and `COP` and `WDM` have one (R93, D7). -/
theorem fetchReadsTheInstruction : Obligations.FetchReadsTheInstruction := by
  intro s
  refine ⟨decode_fetch s, congrArg Reading.after (fetch_of_decode (decode_fetch s)), fun hbrk => ?_, ?_⟩
  · exact fetch_of_implied hbrk (fun _ _ _ => rfl) rfl
  · rintro p hp hop
    obtain rfl | rfl : p = (0x02#8, Instr.cop) ∨ p = (0x42#8, Instr.wdm) := by simpa using hp
    · exact fetch_of_byteOperand hop (fun _ _ _ => rfl) rfl
    · exact fetch_of_byteOperand hop (fun _ _ _ => rfl) rfl

/-- Settles O14: the bytes that decode are those that the fetch reads. -/
theorem stepRunsDecoded : Obligations.StepRunsDecoded := by
  intro s i n haction hdecode
  unfold step
  dsimp only
  rw [haction, fetch_of_decode hdecode]

end Sys2Proof.Machine
end

section
/-! The statements of the addressing modes (`31_addressing_modes.md`): a data address and the one after it, a direct-page address in
each of its two forms, and what a mode that reads a pointer finds with it, as numbers. -/

namespace Sys2Proof.Machine

/-! ### A datum and its next byte -/

@[simp] theorem flatAddr_lo (a : Addr) : (flatAddr a).lo = a := rfl

/-- The next address wraps from the end of memory only (`20_memory.md` R64). -/
@[simp] theorem flatAddr_hi_toNat (a : Addr) : (flatAddr a).hi.toNat = (a.toNat + 1) % 2 ^ 24 := by simp [flatAddr]

/-- An index carries into the bank (R71, R123). -/
theorem addr_add_zext24_toNat (b : Byte) (v idx : Word) :
    (addr b v + zext24 idx).toNat = (65536 * b.toNat + v.toNat + idx.toNat) % 2 ^ 24 := by simp

/-! ### Absolute and long -/

/-- Settles O9: each of the five is a datum at one address, which is a 24-bit sum. -/
theorem absoluteAndLongAddresses : Obligations.AbsoluteAndLongAddresses := by
  intro hhll a s
  refine ⟨addr_toNat _ _, addr_add_zext24_toNat _ _ _, addr_add_zext24_toNat _ _ _, rfl, ?_, ?_⟩
  · simp [eaLongX]
  · simp only [List.forall_mem_cons]
    exact ⟨flatAddr_hi_toNat _, flatAddr_hi_toNat _, flatAddr_hi_toNat _, flatAddr_hi_toNat _, flatAddr_hi_toNat _,
      List.forall_mem_nil _⟩

/-! ### Direct -/

theorem directWraps_old_iff {s : State} : s.directWraps .old = true ↔ s.e = true ∧ s.DL = 0x00#8 := by
  simp [State.directWraps]

/-- In the page operand, index and distance are added in 8-bit arithmetic, so the low byte of the index counts (R131). -/
theorem directAddr_toNat_of_wraps {s : State} {age : Age} (h : s.directWraps age = true) (ll : Byte) (idx k : Word) :
    (s.directAddr age ll idx k).toNat = 256 * s.DH.toNat + (ll.toNat + idx.toNat + k.toNat) % 256 := by
  simp [State.directAddr, h]

/-- Elsewhere they are added to `D` in 16-bit arithmetic, in bank 0 (R131). -/
theorem directAddr_toNat_of_not_wraps {s : State} {age : Age} (h : ¬ s.directWraps age = true) (ll : Byte) (idx k : Word) :
    (s.directAddr age ll idx k).toNat = (s.D.toNat + ll.toNat + idx.toNat + k.toNat) % 65536 := by
  simp [State.directAddr, h]

/-- A new instruction never wraps in the page (R131). -/
theorem directAddr_new (s : State) (ll : Byte) (idx k : Word) :
    s.directAddr .new ll idx k = addr 0x00#8 (s.D + zext16 ll + idx + k) := by
  simp [State.directAddr, State.directWraps]

/-- The low byte of a datum that wraps in the page: of the index only the low byte counts (R132 to R134). -/
theorem directPair_lo_toNat_of_wraps {s : State} {age : Age} (h : s.directWraps age = true) (ll : Byte) (idx : Word) :
    (s.directPair age ll idx).lo.toNat = 256 * s.DH.toNat + (ll.toNat + (lo8 idx).toNat) % 256 := by
  rw [State.directPair, directAddr_toNat_of_wraps h]
  simp

/-- A datum that does not wrap in the page has its bytes at two addresses that follow each other in bank 0 (R132 to R134). -/
theorem directPair_toNat_of_not_wraps {s : State} {age : Age} (h : ¬ s.directWraps age = true) (ll : Byte) (idx : Word) :
    (s.directPair age ll idx).lo.toNat = (s.D.toNat + ll.toNat + idx.toNat) % 65536 ∧
      (s.directPair age ll idx).hi.toNat = (s.D.toNat + ll.toNat + idx.toNat + 1) % 65536 :=
  ⟨directAddr_toNat_of_not_wraps h ll idx 0, directAddr_toNat_of_not_wraps h ll idx 1⟩

/-- Settles O10: `dir` is the datum at index 0, and PEI's is that of a new instruction. -/
theorem directAddresses : Obligations.DirectAddresses := by
  intro ll s
  rw [← directWraps_old_iff]
  refine ⟨fun wraps => ⟨?_, ?_, ?_⟩, fun flat => ?_, ?_⟩
  · have dir := directPair_lo_toNat_of_wraps wraps ll 0
    have inPage : (ll.toNat + 0) % 256 = ll.toNat := Nat.mod_eq_of_lt ll.isLt
    exact dir.trans (congrArg _ inPage)
  · exact directPair_lo_toNat_of_wraps wraps ll s.X
  · exact directPair_lo_toNat_of_wraps wraps ll s.Y
  · obtain ⟨dirLo, dirHi⟩ := directPair_toNat_of_not_wraps flat ll 0
    obtain ⟨dirXLo, dirXHi⟩ := directPair_toNat_of_not_wraps flat ll s.X
    obtain ⟨dirYLo, dirYHi⟩ := directPair_toNat_of_not_wraps flat ll s.Y
    exact ⟨dirLo, dirHi, dirXLo, dirXHi, dirYLo, dirYHi⟩
  · exact directPair_toNat_of_not_wraps (age := .new) (by simp [State.directWraps]) ll 0

/-! ### Pointers -/

/-- A 16-bit pointer addresses the data bank (R135, R138). -/
theorem throughPointer_value (s : State) (pointer : DataAddr) (idx : Word) :
    (s.throughPointer pointer idx).value = flatAddr (addr s.DBR (s.wordAfter [] pointer) + zext24 idx) := rfl

/-- Without an index the datum is in the data bank itself (R135, R137). -/
theorem throughPointer_zero_lo_toNat (s : State) (pointer : DataAddr) :
    (s.throughPointer pointer 0).value.lo.toNat = 65536 * s.DBR.toNat + (s.wordAfter [] pointer).toNat := by
  simp [throughPointer_value, zext24]

theorem throughPointer_lo_toNat (s : State) (pointer : DataAddr) (idx : Word) :
    (s.throughPointer pointer idx).value.lo.toNat =
      (65536 * s.DBR.toNat + (s.wordAfter [] pointer).toNat + idx.toNat) % 2 ^ 24 := addr_add_zext24_toNat _ _ _

/-- The 24-bit pointer of `[dir]` and `[dir],Y`, each byte as it is read after those before it (R136, R139). -/
def State.farPointer (s : State) (ll : Byte) : Addr :=
  addr (s.readAfter [.read (addr 0 (s.D + zext16 ll)), .read (addr 0 (s.D + zext16 ll + 1))] (addr 0 (s.D + zext16 ll + 2)))
    (s.wordAfter [] { lo := addr 0 (s.D + zext16 ll), hi := addr 0 (s.D + zext16 ll + 1) })

/-- The pointer's three bytes are read low to high, and the datum is at the pointer plus the index (R136, R139, D2). -/
theorem throughLongPointer_eq (s : State) (ll : Byte) (idx : Word) :
    s.throughLongPointer ll idx =
      { value := flatAddr (s.farPointer ll + zext24 idx),
        after := s.perform [.read (addr 0 (s.D + zext16 ll)), .read (addr 0 (s.D + zext16 ll + 1)),
          .read (addr 0 (s.D + zext16 ll + 2))] } := by
  have low : s.directAddr .new ll 0 0 = addr 0 (s.D + zext16 ll) := by simp [directAddr_new]
  have middle : s.directAddr .new ll 0 1 = addr 0 (s.D + zext16 ll + 1) := by simp [directAddr_new]
  have high : s.directAddr .new ll 0 2 = addr 0 (s.D + zext16 ll + 2) := by simp [directAddr_new]
  simp only [State.throughLongPointer, read24_value, read24_after, State.directPair, low, middle, high]
  rfl

theorem eaDirLong_lo (ll : Byte) (s : State) : (eaDirLong ll s).value.lo = s.farPointer ll := by
  simp [eaDirLong, throughLongPointer_eq, zext24]

theorem eaDirLongY_lo_toNat (ll : Byte) (s : State) :
    (eaDirLongY ll s).value.lo.toNat = ((s.farPointer ll).toNat + s.Y.toNat) % 2 ^ 24 := by
  simp [eaDirLongY, throughLongPointer_eq]

/-- Settles O11: three modes go through a pair in the direct page, one through a pair on the stack, and two through the 24-bit
pointer; each finds a datum at one address. -/
theorem indirectAddresses : Obligations.IndirectAddresses := by
  intro ll s
  dsimp only
  rw [← directWraps_old_iff]
  refine ⟨fun wraps => directAddr_toNat_of_wraps wraps ll, fun flat => directAddr_toNat_of_not_wraps flat ll,
    throughPointer_zero_lo_toNat s _, throughPointer_zero_lo_toNat s _, throughPointer_lo_toNat s _ _, eaDirLong_lo ll s,
    eaDirLongY_lo_toNat ll s, throughPointer_lo_toNat s _ _, ?_, ?_, fun mode _ => mode.find_after s⟩
  · simp only [List.forall_mem_cons]
    exact ⟨flatAddr_hi_toNat _, flatAddr_hi_toNat _, flatAddr_hi_toNat _, flatAddr_hi_toNat _, flatAddr_hi_toNat _,
      flatAddr_hi_toNat _, List.forall_mem_nil _⟩
  · simp [eaDirLong, eaDirLongY, throughLongPointer_eq]

/-! ### Stack relative -/

/-- Settles O12: both bytes are at 16-bit sums in bank 0, and neither looks at `e`. -/
theorem stackRelativeAddresses : Obligations.StackRelativeAddresses := by
  intro ll s
  simp [eaStkS, State.stackRelative]

end Sys2Proof.Machine
end

section
/-! The statements of addition and subtraction (`40_adc_sbc.md`): the four computations of a result and its flags as numbers, what
ADC and SBC alike do with the computed result, and that for an operand in any of its fifteen forms. -/

namespace Sys2Proof.Machine

/-! ### A result that fits its width -/

/-- The result fits the width, and `n` and `z` are computed from it (`40_adc_sbc.md` R171 to R175). -/
structure Arith.Narrow (w : Width) (r : Arith) : Prop where
  lt : r.result.toNat < 2 ^ bits w
  n : r.n = hibit w r.result
  z : r.z = decide (r.result = 0)

theorem truncNat_lt (w : Width) (k : Nat) : (truncNat w k).toNat < 2 ^ bits w := by
  rw [truncNat_toNat]
  exact Nat.mod_lt _ (by positivity)

theorem truncInt_lt (w : Width) (k : Int) : (truncInt w k).toNat < 2 ^ bits w := by
  have below : k % 2 ^ bits w < 2 ^ bits w := Int.emod_lt_of_pos _ (by positivity)
  rw [← truncInt_toNat] at below
  exact_mod_cast below

theorem decimalRange_pos (w : Width) : 0 < decimalRange w := by rw [decimalRange_eq]; positivity

/-- An integer modulo the decimal range, as a natural number (R175). -/
theorem emod_decimalRange_toNat (w : Width) (k : Int) :
    ((k % (decimalRange w : Int)).toNat : Int) = k % 10 ^ (bits w / 4) ∧ (k % (decimalRange w : Int)).toNat < decimalRange w := by
  have pos : (0 : Int) < decimalRange w := by exact_mod_cast decimalRange_pos w
  have cast := Int.toNat_of_nonneg (Int.emod_nonneg k pos.ne')
  have below := Int.emod_lt_of_pos k pos
  refine ⟨?_, by omega⟩
  rw [cast, decimalRange_eq]
  push_cast
  rfl

/-! ### The four computations -/

theorem adcBinary_narrow (w : Width) (a data : Word) (c : Bool) : (adcBinary w a data c).Narrow w :=
  ⟨truncNat_lt w _, rfl, rfl⟩

theorem sbcBinary_narrow (w : Width) (a data : Word) (c : Bool) : (sbcBinary w a data c).Narrow w :=
  ⟨truncInt_lt w _, rfl, rfl⟩

theorem adcDecimal_narrow (w : Width) (a data : Word) (c v : Bool) : (adcDecimal w a data c v).Narrow w :=
  ⟨(bcdEnc_spec w _ (Nat.mod_lt _ (decimalRange_pos w))).1, rfl, rfl⟩

theorem sbcDecimal_narrow (w : Width) (a data : Word) (c v : Bool) : (sbcDecimal w a data c v).Narrow w :=
  ⟨(bcdEnc_spec w _ (emod_decimalRange_toNat w _).2).1, rfl, rfl⟩

section
variable {w : Width} {a data : Word} (ha : a.toNat < 2 ^ bits w) (hdata : data.toNat < 2 ^ bits w) (c v : Bool)
include ha hdata

/-- Binary ADC: the sum modulo `2^M`, `c` and `v` (R171). -/
theorem adcBinary_spec :
    let sum := a.toNat + data.toNat + carryNat c
    (adcBinary w a data c).result.toNat = sum % 2 ^ bits w ∧ ((adcBinary w a data c).c = true ↔ 2 ^ bits w ≤ sum) ∧
    ((adcBinary w a data c).v = true ↔
      OutOfRange (bits w) (signedNat (bits w) a.toNat + signedNat (bits w) data.toNat + carryNat c)) := by
  refine ⟨truncNat_toNat w _, decide_eq_true_iff, ?_⟩
  rw [← signedVal_eq w a ha, ← signedVal_eq w data hdata]
  exact overflows_iff w _

/-- Binary SBC: the difference modulo `2^M`, `c` and `v` (R172, R173). -/
theorem sbcBinary_spec :
    let diff : Int := a.toNat - data.toNat - 1 + carryNat c
    ((sbcBinary w a data c).result.toNat : Int) = diff % 2 ^ bits w ∧ ((sbcBinary w a data c).c = true ↔ 0 ≤ diff) ∧
    ((sbcBinary w a data c).v = true ↔
      OutOfRange (bits w) (signedNat (bits w) a.toNat - signedNat (bits w) data.toNat - 1 + carryNat c)) := by
  refine ⟨truncInt_toNat w _, decide_eq_true_iff, ?_⟩
  rw [← signedVal_eq w a ha, ← signedVal_eq w data hdata]
  exact overflows_iff w _

/-- Decimal ADC: the digits of the sum modulo `10^K`, and `c` (R174). -/
theorem adcDecimal_spec :
    let K := bits w / 4
    let sum := bcdNumber K a.toNat + bcdNumber K data.toNat + carryNat c
    bcdDigits K (adcDecimal w a data c v).result.toNat = true ∧
    bcdNumber K (adcDecimal w a data c v).result.toNat = sum % 10 ^ K ∧
    ((adcDecimal w a data c v).c = true ↔ 10 ^ K ≤ sum) := by
  dsimp only
  rw [← (bcd_eq w a ha).2, ← (bcd_eq w data hdata).2, ← decimalRange_eq]
  obtain ⟨-, digits, number⟩ := bcdEnc_spec w _ (Nat.mod_lt (bcdVal a + bcdVal data + carryNat c) (decimalRange_pos w))
  exact ⟨digits, number, decide_eq_true_iff⟩

/-- Decimal SBC: the digits of the difference modulo `10^K`, and `c` (R175). -/
theorem sbcDecimal_spec :
    let K := bits w / 4
    let diff : Int := bcdNumber K a.toNat - bcdNumber K data.toNat - 1 + carryNat c
    bcdDigits K (sbcDecimal w a data c v).result.toNat = true ∧
    (bcdNumber K (sbcDecimal w a data c v).result.toNat : Int) = diff % 10 ^ K ∧
    ((sbcDecimal w a data c v).c = true ↔ 0 ≤ diff) := by
  dsimp only
  rw [← (bcd_eq w a ha).2, ← (bcd_eq w data hdata).2]
  obtain ⟨modulo, inRange⟩ := emod_decimalRange_toNat w (bcdVal a - bcdVal data - 1 + carryNat c)
  obtain ⟨-, digits, number⟩ := bcdEnc_spec w _ inRange
  exact ⟨digits, (congrArg Nat.cast number).trans modulo, decide_eq_true_iff⟩

end

/-! ### What ADC and SBC do with a computed result -/

/-- A state whose accumulator and flags hold a result of `n` bits. -/
structure Arith.StoredIn (n : Nat) (r : Arith) (t : State) : Prop where
  acc : t.accNat = r.result.toNat
  signZero : SignZero n t.accNat t
  v : t.v = r.v
  c : t.c = r.c

theorem putArith_storedIn {s : State} {r : Arith} (h : r.Narrow s.mWidth) : r.StoredIn s.mBits (s.putArith r) := by
  obtain ⟨hacc, -, hn, hv, hz, hc, -⟩ := putArith_spec s r
  have lt := h.lt
  have sign := hibit_iff _ _ lt
  rw [bits_mWidth] at lt sign
  rw [Nat.mod_eq_of_lt lt] at hacc
  refine ⟨hacc, ⟨?_, ?_⟩, hv, hc⟩
  · rw [hn, h.n, hacc, sign]
  · rw [hz, h.z, hacc, decide_eq_true_iff, ← BitVec.toNat_inj]
    rfl

/-- What ADC and SBC have in common: the binary result with `d = 0`, the decimal one with `d = 1` on BCD operands, a free one
otherwise (R171 to R177, log 8). -/
def State.arith (s : State) (data : Word) (binary decimal : Arith) : State :=
  if s.d then
    if bcdValid s.acc && bcdValid data then (s.putArith decimal).setFreeCount (s.freeCount + 1)
    else (s.putArith (decimalFree s.mWidth s.freeCount)).setFreeCount (s.freeCount + 4)
  else s.putArith binary

theorem adc_eq_arith (s : State) (data : Word) :
    s.adc data = s.arith data (adcBinary s.mWidth s.acc data s.c)
      (adcDecimal s.mWidth s.acc data s.c (Config.freeBit s.freeCount)) := rfl

theorem sbc_eq_arith (s : State) (data : Word) :
    s.sbc data = s.arith data (sbcBinary s.mWidth s.acc data s.c)
      (sbcDecimal s.mWidth s.acc data s.c (Config.freeBit s.freeCount)) := rfl

section
variable (s : State) (data : Word) (binary decimal : Arith)

/-- Some result is stored, and the counter of free values moves with `d = 1` only. -/
theorem arith_eq_putArith : ∃ r k, s.arith data binary decimal = (s.putArith r).setFreeCount k ∧
    (s.d = true ∨ k = s.freeCount) := by
  unfold State.arith
  split_ifs with hd hvalid
  · exact ⟨decimal, _, rfl, .inl hd⟩
  · exact ⟨_, _, rfl, .inl hd⟩
  · exact ⟨binary, s.freeCount, rfl, .inr rfl⟩

theorem arith_PC : (s.arith data binary decimal).PC = s.PC := by
  obtain ⟨r, k, stored, -⟩ := arith_eq_putArith s data binary decimal
  rw [stored]
  rfl

/-- `B` is kept at 8 bits (`10_state.md` R22). -/
theorem arith_B (hm : s.m = true) : (s.arith data binary decimal).B = s.B := by
  obtain ⟨r, k, stored, -⟩ := arith_eq_putArith s data binary decimal
  obtain ⟨-, keepsB, -⟩ := putArith_spec s r
  rw [stored]
  exact keepsB hm

/-- `C`, the four flags and, with `d = 1`, the counter of free values are all that changes. -/
theorem arith_frame : Frame { C := true, freeCount := s.d, flags := flagsNVZC } s (s.arith data binary decimal) := by
  obtain ⟨r, k, stored, counter⟩ := arith_eq_putArith s data binary decimal
  obtain ⟨-, -, -, -, -, -, frame⟩ := putArith_spec s r
  rw [stored]
  exact { frame with freeCount := counter }

variable {s data binary decimal}

theorem arith_of_binary (hd : s.d = false) : s.arith data binary decimal = s.putArith binary := by
  simp [State.arith, hd]

theorem arith_of_bcd (hd : s.d = true) (hacc : bcdValid s.acc = true) (hdata : bcdValid data = true) :
    s.arith data binary decimal = (s.putArith decimal).setFreeCount (s.freeCount + 1) := by
  simp [State.arith, hd, hacc, hdata]

end

/-! ### The fifteen forms -/

/-- What ADC or SBC of an operand leaves, given its binary and its decimal result. -/
structure Operand.Computed (o : Operand) (s : State) (binary decimal : Arith) (t : State) : Prop where
  PC : t.PC = s.PC + o.len s
  B : s.m = true → t.B = s.B
  frame : Frame { C := true, freeCount := s.d, flags := flagsNVZC, accesses := o.accesses s } s t
  binary : s.d = false → binary.StoredIn s.mBits t
  decimal : s.d = true → bcdDigits (s.mBits / 4) s.accNat = true → bcdDigits (s.mBits / 4) (o.val s) = true →
    decimal.StoredIn s.mBits t

/-- The operand's data fit `M` bits. -/
theorem Operand.load_lt (o : Operand) (s : State) : (o.load s).value.toNat < 2 ^ bits s.mWidth := by
  simpa using o.val_lt s

/-- The accumulator fits `M` bits. -/
theorem acc_lt (s : State) : s.acc.toNat < 2 ^ bits s.mWidth := by simpa using accNat_lt s

/-- The data are read, the result is stored, and `PC` moves on. -/
theorem Operand.arith_computed (o : Operand) (s : State) {binary decimal : Arith} (hb : binary.Narrow s.mWidth)
    (hdec : decimal.Narrow s.mWidth) :
    o.Computed s binary decimal (((o.load s).after.arith (o.load s).value binary decimal).advance (o.len s)) := by
  rw [o.load_after]
  have flag := s.perform_d (o.accesses s)
  have width := s.perform_mWidth (o.accesses s)
  have size := s.perform_mBits (o.accesses s)
  constructor
  case PC => rw [State.advance_PC, arith_PC, State.perform_PC]
  case B =>
    intro hm
    rw [B_advance, arith_B _ _ _ _ (by rwa [State.perform_m]), State.perform_B]
  case frame =>
    have frame := arith_frame (s.perform (o.accesses s)) (o.load s).value binary decimal
    rw [flag] at frame
    exact (frame_advance _ _ _ _).2 ((o.frame s).after frame rfl)
  case binary =>
    intro hd
    rw [arith_of_binary (flag.trans hd), ← size]
    exact { putArith_storedIn (width ▸ hb) with }
  case decimal =>
    intro hd hacc hval
    have validAcc : bcdValid s.acc = true := by simpa [(bcd_eq _ _ (acc_lt s)).1] using hacc
    have validData : bcdValid (o.load s).value = true := by simpa [(bcd_eq _ _ (o.load_lt s)).1] using hval
    rw [arith_of_bcd (flag.trans hd) (by rwa [State.perform_acc]) validData, ← size]
    exact { putArith_storedIn (width ▸ hdec) with }

theorem adcOf_computed (o : Operand) (s : State) : ∃ t, exec (adcOf o) s = .next t ∧
    o.Computed s (adcBinary s.mWidth s.acc (o.load s).value s.c)
      (adcDecimal s.mWidth s.acc (o.load s).value s.c (Config.freeBit s.freeCount)) t := by
  refine ⟨_, ?_, o.arith_computed s (adcBinary_narrow _ _ _ _) (adcDecimal_narrow _ _ _ _ _)⟩
  rw [exec_adcOf, adc_eq_arith]
  simp

theorem sbcOf_computed (o : Operand) (s : State) : ∃ t, exec (sbcOf o) s = .next t ∧
    o.Computed s (sbcBinary s.mWidth s.acc (o.load s).value s.c)
      (sbcDecimal s.mWidth s.acc (o.load s).value s.c (Config.freeBit s.freeCount)) t := by
  refine ⟨_, ?_, o.arith_computed s (sbcBinary_narrow _ _ _ _) (sbcDecimal_narrow _ _ _ _ _)⟩
  rw [exec_sbcOf, sbc_eq_arith]
  simp

/-- Settles O34: the result stored is the binary or the decimal sum, which the two computations give as numbers. -/
theorem adcAdds : Obligations.AdcAdds := by
  intro o s
  have binarySum := adcBinary_spec (acc_lt s) (o.load_lt s) s.c
  have decimalSum := adcDecimal_spec (acc_lt s) (o.load_lt s) s.c (Config.freeBit s.freeCount)
  simp only [bits_mWidth, acc_toNat, Operand.load_toNat] at binarySum decimalSum
  obtain ⟨t, run, computed⟩ := adcOf_computed o s
  refine ⟨t, run, computed.PC, computed.B, computed.frame, fun hd => ?_, fun hd hacc hval => ?_⟩
  · obtain ⟨acc, signZero, v, c⟩ := computed.binary hd
    obtain ⟨result, carry, overflow⟩ := binarySum
    exact ⟨acc.trans result, c ▸ carry, signZero, v ▸ overflow⟩
  · obtain ⟨acc, signZero, -, c⟩ := computed.decimal hd hacc hval
    obtain ⟨digits, number, carry⟩ := decimalSum
    exact ⟨acc ▸ digits, acc ▸ number, c ▸ carry, signZero⟩

/-- Settles O35: the result stored is the binary or the decimal difference, which the two computations give as numbers. -/
theorem sbcSubtracts : Obligations.SbcSubtracts := by
  intro o s
  have binaryDiff := sbcBinary_spec (acc_lt s) (o.load_lt s) s.c
  have decimalDiff := sbcDecimal_spec (acc_lt s) (o.load_lt s) s.c (Config.freeBit s.freeCount)
  simp only [bits_mWidth, acc_toNat, Operand.load_toNat] at binaryDiff decimalDiff
  obtain ⟨t, run, computed⟩ := sbcOf_computed o s
  refine ⟨t, run, computed.PC, computed.B, computed.frame, fun hd => ?_, fun hd hacc hval => ?_⟩
  · obtain ⟨acc, signZero, v, c⟩ := computed.binary hd
    obtain ⟨result, carry, overflow⟩ := binaryDiff
    exact ⟨(congrArg Nat.cast acc).trans result, c ▸ carry, signZero, v ▸ overflow⟩
  · obtain ⟨acc, signZero, -, c⟩ := computed.decimal hd hacc hval
    obtain ⟨digits, number, carry⟩ := decimalDiff
    exact ⟨acc ▸ digits, acc ▸ number, c ▸ carry, signZero⟩

end Sys2Proof.Machine
end

section
/-! The statements of compares, increments and decrements (`41_compare_incdec.md`): a compare of a register with data from any source,
and one step of a value, up or down, in memory, in the accumulator and in an index register. -/

namespace Sys2Proof.Machine

/-! ### Data from a source -/

/-- `v` is the word that the source's data are in `s`: it fits the width, and reading it makes the source's accesses and no more. -/
structure Source.Loaded (data : Source) (s : State) (w : Width) (v : Word) : Prop where
  val : v.toNat = data.val s
  lt : v.toNat < 2 ^ bits w
  frame : Frame { accesses := data.accesses s } s (s.perform (data.accesses s))

theorem Operand.source_loaded (o : Operand) (s : State) : o.source.Loaded s s.mWidth (o.load s).value :=
  ⟨o.load_toNat s, o.load_lt s, o.frame s⟩

theorem truncWord_lt (w : Width) (v : Word) : (truncWord w v).toNat < 2 ^ bits w := by
  rw [truncWord_toNat]
  exact Nat.mod_lt _ (by positivity)

theorem indexImm_loaded (v : Word) (s : State) : (indexImm v).Loaded s s.xWidth (immData s.xWidth v) where
  val := by simp [immData, indexImm]
  lt := truncWord_lt _ _
  frame := Frame.refl rfl s

theorem indexAt_loaded (ea : State → DataAddr) (s : State) : (indexAt ea).Loaded s s.xWidth (s.readData s.xWidth (ea s)).value where
  val := by simp [indexAt]
  lt := by simpa using dataNat_lt s s.xWidth (ea s)
  frame := perform_reads_frame s _

/-! ### Compares -/

/-- An instruction that reads its data, compares and moves `PC` on sets the flags of the compare and does nothing else. -/
theorem comparesWith_of_exec {i : Instr} {n reg : State → Nat} {data : Source} {len : State → Word}
    (w : State → Width) (r v : State → Word) (hn : ∀ s, bits (w s) = n s) (hr : ∀ s, (r s).toNat = reg s)
    (hlt : ∀ s, (r s).toNat < 2 ^ bits (w s)) (hv : ∀ s, data.Loaded s (w s) (v s))
    (hexec : ∀ s, exec i s = .next (((s.perform (data.accesses s)).compare (w s) (r s) (v s)).advance (len s))) :
    ComparesWith i n reg data len := by
  intro s
  have loaded := hv s
  obtain ⟨carry, zero, sign, frame⟩ := compare_spec (s.perform (data.accesses s)) (w s) (r s) (v s) (hlt s) loaded.lt
  rw [hr, loaded.val] at carry zero sign
  rw [hn] at sign
  exact ⟨_, hexec s, carry, zero, sign, by simp, (frame_advance _ _ _ _).2 (loaded.frame.after frame rfl)⟩

theorem cmpOf_compares (o : Operand) : ComparesWith (cmpOf o) State.mBits State.accNat o.source o.len :=
  comparesWith_of_exec State.mWidth State.acc (fun s => (o.load s).value) bits_mWidth acc_toNat acc_lt o.source_loaded fun s => by
    rw [exec_cmpOf, o.load_after, State.cmp, State.perform_mWidth, State.perform_acc]
    rfl

section
variable {i : Instr} {f : State → Word → State} {reg : State → Word}
  (hf : ∀ s data, f s data = s.compare s.xWidth (truncWord s.xWidth (reg s)) data)
include hf

/-- CPX or CPY, by the register it compares, with immediate data. -/
theorem comparesWith_of_immX {v : Word} (hexec : ∀ s, exec i s = immX f v s) :
    ComparesWith i State.xBits (fun s => (reg s).toNat % 2 ^ s.xBits) (indexImm v) (fun s => if s.x then 2 else 3) :=
  comparesWith_of_exec State.xWidth (fun s => truncWord s.xWidth (reg s)) (fun s => immData s.xWidth v) bits_xWidth (by simp)
    (fun s => truncWord_lt _ _) (indexImm_loaded v) fun s => by
      rw [hexec, immX, hf, immLen_xWidth]
      rfl

/-- CPX or CPY, by the register it compares, with data in memory. -/
theorem comparesWith_of_loadX {ea : State → DataAddr} {len : Word} (hreg : ∀ s l, reg (s.perform l) = reg s)
    (hexec : ∀ s, exec i s = loadX f ea len s) :
    ComparesWith i State.xBits (fun s => (reg s).toNat % 2 ^ s.xBits) (indexAt ea) (fun _ => len) :=
  comparesWith_of_exec State.xWidth (fun s => truncWord s.xWidth (reg s)) (fun s => (s.readData s.xWidth (ea s)).value) bits_xWidth
    (by simp) (fun s => truncWord_lt _ _) (indexAt_loaded ea) fun s => by
      rw [hexec, loadX]
      simp only [hf, readData_after, bits_xWidth, State.perform_xWidth, hreg]
      rfl

end

/-- Settles O36: every form reads its data, compares the register at its width with them, and moves `PC` on. -/
theorem comparesSetFlags : Obligations.ComparesSetFlags := by
  refine ⟨cmpOf_compares, fun v => ⟨?_, ?_, ?_, ?_⟩, fun ll => ⟨?_, ?_⟩⟩
  · exact comparesWith_of_immX (f := State.cpx) (fun _ _ => rfl) fun _ => rfl
  · exact comparesWith_of_immX (f := State.cpy) (fun _ _ => rfl) fun _ => rfl
  · exact comparesWith_of_loadX (f := State.cpx) (fun _ _ => rfl) State.perform_X fun _ => rfl
  · exact comparesWith_of_loadX (f := State.cpy) (fun _ _ => rfl) State.perform_Y fun _ => rfl
  · exact comparesWith_of_loadX (f := State.cpx) (fun _ _ => rfl) State.perform_X fun _ => rfl
  · exact comparesWith_of_loadX (f := State.cpy) (fun _ _ => rfl) State.perform_Y fun _ => rfl

/-! ### One more and one less -/

/-- On words `f` is what `g` is on numbers of the width, and its result fits the width. -/
structure StepsBy (f : Width → Word → Word) (g : Nat → Nat → Nat) : Prop where
  toNat : ∀ w v, (f w v).toNat = g (bits w) v.toNat
  lt : ∀ w v, (f w v).toNat < 2 ^ bits w

theorem incValue_stepsBy : StepsBy incValue fun n v => (v + 1) % 2 ^ n := ⟨incValue_toNat, fun w _ => truncWord_lt w _⟩

theorem decValue_stepsBy : StepsBy decValue fun n v => (v + 2 ^ n - 1) % 2 ^ n := ⟨decValue_toNat, fun w _ => truncWord_lt w _⟩

/-- `SetNZ` of a value that fits the width speaks of the value itself (`00_scope.md` R16). -/
theorem setNZ_signZero {w : Width} {v : Word} (h : v.toNat < 2 ^ bits w) (s : State) : SignZero (bits w) v.toNat (s.setNZ w v) := by
  obtain ⟨signZero, -⟩ := setNZ_spec s w v
  rwa [Nat.mod_eq_of_lt h] at signZero

/-- An index register holds what fits its width as it is (`10_state.md` R23, R36). -/
theorem indexForced_of_lt {s : State} {v : Word} (h : v.toNat < 2 ^ bits s.xWidth) : indexForced s.x v = v := by
  rw [bits_xWidth, State.xBits] at h
  unfold indexForced
  split_ifs at h ⊢
  · exact BitVec.eq_of_toNat_eq (by simpa using h)
  · rfl

section
variable {f : Width → Word → Word} {g : Nat → Nat → Nat} (hf : StepsBy f g)
include hf

/-- All data are read, their step is written where they were, `n` and `z` follow it, and `PC` moves on (R200). -/
theorem replacesData_of_stepMem {i : Instr} {mode : MemMode} (hexec : ∀ s, exec i s = stepMem f mode.ea mode.len s) :
    ReplacesData i g mode.ea mode.len := by
  intro s hwf
  have stepped := hf.toNat s.mWidth (s.readData s.mWidth (mode.ea s)).value
  have signZero := setNZ_signZero (hf.lt s.mWidth (s.readData s.mWidth (mode.ea s)).value)
  rw [readData_toNat, bits_mWidth] at stepped
  rw [stepped, bits_mWidth] at signZero
  refine ⟨_, (hexec s).trans (stepMem_eq ..), signZero _, by simp, ?_⟩
  rw [← stepped, frame_advance]
  exact (readsThenData_frame hwf _ _ (mode.ea_ne s) _).after (setNZ_spec _ _ _).2 rfl

/-- INC or DEC of the accumulator (R200). -/
theorem stepAcc_spec (s : State) :
    ∃ t, stepAcc f s = .next t ∧ t.accNat = g s.mBits s.accNat ∧ (s.m = true → t.B = s.B) ∧ SignZero s.mBits t.accNat t ∧
      t.PC = s.PC + 1 ∧ Frame { C := true, flags := flagsNZ } s t := by
  obtain ⟨acc, keepsB, signZero, frame⟩ := putAccNZ_spec s (f s.mWidth s.acc)
  have stepped := hf.toNat s.mWidth s.acc
  rw [bits_mWidth, acc_toNat] at stepped
  have fits := hf.lt s.mWidth s.acc
  rw [bits_mWidth] at fits
  rw [← acc] at signZero
  rw [Nat.mod_eq_of_lt fits, stepped] at acc
  exact ⟨_, rfl, acc, keepsB, signZero, rfl, (frame_advance _ _ _ _).2 frame⟩

/-- What an index register that held `v` holds after its step, and the flags set from it in the state `u` with it (R195 to R199). -/
theorem index_stepped (s u : State) (v : Word) :
    (indexForced s.x (f s.xWidth v)).toNat = g s.xBits v.toNat ∧
    SignZero s.xBits (indexForced s.x (f s.xWidth v)).toNat (u.setNZ s.xWidth (f s.xWidth v)) ∧
    Frame { flags := flagsNZ } u (u.setNZ s.xWidth (f s.xWidth v)) := by
  have fits := hf.lt s.xWidth v
  have stepped := hf.toNat s.xWidth v
  have signZero := setNZ_signZero fits u
  rw [bits_xWidth] at stepped signZero
  rw [indexForced_of_lt fits]
  exact ⟨stepped, signZero, (setNZ_spec _ _ _).2⟩

/-- INX or DEX (R195, R198). -/
theorem stepX_spec (s : State) :
    ∃ t, stepX f s = .next t ∧ t.X.toNat = g s.xBits s.X.toNat ∧ SignZero s.xBits t.X.toNat t ∧ t.PC = s.PC + 1 ∧
      Frame { X := true, flags := flagsNZ } s t := by
  obtain ⟨held, signZero, frame⟩ := index_stepped hf s (s.setX (f s.xWidth s.X)) s.X
  exact ⟨_, rfl, held, signZero, rfl, (frame_advance _ _ _ _).2 { frame with X := .inl rfl }⟩

/-- INY or DEY (R196, R199). -/
theorem stepY_spec (s : State) :
    ∃ t, stepY f s = .next t ∧ t.Y.toNat = g s.xBits s.Y.toNat ∧ SignZero s.xBits t.Y.toNat t ∧ t.PC = s.PC + 1 ∧
      Frame { Y := true, flags := flagsNZ } s t := by
  obtain ⟨held, signZero, frame⟩ := index_stepped hf s (s.setY (f s.xWidth s.Y)) s.Y
  exact ⟨_, rfl, held, signZero, rfl, (frame_advance _ _ _ _).2 { frame with Y := .inl rfl }⟩

end

/-- Settles O37: both are the one read-modify-write of memory, in each mode. -/
theorem incDecMemory : Obligations.IncDecMemory := fun mode =>
  ⟨replacesData_of_stepMem incValue_stepsBy (exec_incOf mode), replacesData_of_stepMem decValue_stepsBy (exec_decOf mode)⟩

/-- Settles O38: the accumulator and each index register take one step up or down at their width. -/
theorem incDecRegisters : Obligations.IncDecRegisters := fun s =>
  ⟨stepAcc_spec incValue_stepsBy s, stepAcc_spec decValue_stepsBy s, stepX_spec incValue_stepsBy s, stepX_spec decValue_stepsBy s,
    stepY_spec incValue_stepsBy s, stepY_spec decValue_stepsBy s⟩

end Sys2Proof.Machine
end

section
/-! The statements of logic and bit tests (`42_logic_bit.md`): a bitwise operation on words as one on numbers, its result in the
accumulator, and the two ways of testing bits, with the data left alone and with them put back changed. -/

namespace Sys2Proof.Machine

/-! ### AND, EOR and ORA (R210 to R213) -/

/-- On words `f` is what `g` is on numbers, and `g` keeps to the width of its operands. -/
structure BitwiseAs (f : Word → Word → Word) (g : Nat → Nat → Nat) : Prop where
  toNat : ∀ a b, (f a b).toNat = g a.toNat b.toNat
  lt : ∀ {n a b : Nat}, a < 2 ^ n → b < 2 ^ n → g a b < 2 ^ n

theorem and_bitwiseAs : BitwiseAs (fun a b => a &&& b) fun a b => a &&& b :=
  ⟨BitVec.toNat_and, fun _ hb => Nat.and_lt_two_pow _ hb⟩

theorem xor_bitwiseAs : BitwiseAs (fun a b => a ^^^ b) fun a b => a ^^^ b := ⟨BitVec.toNat_xor, Nat.xor_lt_two_pow⟩

theorem or_bitwiseAs : BitwiseAs (fun a b => a ||| b) fun a b => a ||| b := ⟨BitVec.toNat_or, Nat.or_lt_two_pow⟩

/-- The data are read, the result goes to the accumulator, `n` and `z` follow it, and `PC` moves on (R210). -/
theorem bitwise_on_accumulator {f : Word → Word → Word} {g : Nat → Nat → Nat} (hf : BitwiseAs f g) {i : Instr} (o : Operand)
    (s : State) (hexec : exec i s =
      .next (((o.load s).after.putAccNZ (f (o.load s).after.acc (o.load s).value)).advance (o.len s))) :
    ∃ t, exec i s = .next t ∧ t.accNat = g s.accNat (o.val s) ∧ (s.m = true → t.B = s.B) ∧
      SignZero s.mBits (g s.accNat (o.val s)) t ∧ t.PC = s.PC + o.len s ∧
      Frame { C := true, flags := flagsNZ, accesses := o.accesses s } s t := by
  rw [o.load_after, State.perform_acc] at hexec
  have result : (f s.acc (o.load s).value).toNat = g s.accNat (o.val s) := by
    rw [hf.toNat, acc_toNat, o.load_toNat]
  obtain ⟨acc, keepsB, signZero, frame⟩ := putAccNZ_spec (s.perform (o.accesses s)) (f s.acc (o.load s).value)
  rw [State.perform_mBits, result, Nat.mod_eq_of_lt (hf.lt (accNat_lt s) (o.val_lt s))] at acc signZero
  rw [State.perform_m, State.perform_B] at keepsB
  exact ⟨_, hexec, acc, keepsB, signZero, by simp, (frame_advance _ _ _ _).2 ((o.frame s).after frame rfl)⟩

/-- Settles O39: the three are bitwise operations on the accumulator and the operand's data. -/
theorem logicOnAccumulator : Obligations.LogicOnAccumulator := by
  intro o s p hp
  simp only [List.mem_cons, List.not_mem_nil, or_false] at hp
  obtain rfl | rfl | rfl := hp
  · exact bitwise_on_accumulator and_bitwiseAs o s (exec_andOf o s)
  · exact bitwise_on_accumulator xor_bitwiseAs o s (exec_eorOf o s)
  · exact bitwise_on_accumulator or_bitwiseAs o s (exec_oraOf o s)

/-! ### BIT (R214) -/

/-- A write of flags inside a mask changes nothing but them. -/
theorem setFlags_frame {s : State} {p mask : Byte} (h : p &&& ~~~mask = s.P &&& ~~~mask) :
    Frame { flags := mask } s (s.setFlags p) :=
  { Frame.refl rfl s with P := h }

/-- The `z` of a bit test and nothing else (R214, R217). -/
theorem testBits_frame (s : State) (data : Word) : Frame { flags := flagZ } s (s.testBits data) :=
  setFlags_frame (testBits_spec s data).2

theorem accNat_setN (s : State) (b : Bool) : (s.setN b).accNat = s.accNat := by simp [State.accNat, State.A]

theorem accNat_setV (s : State) (b : Bool) : (s.setV b).accNat = s.accNat := by simp [State.accNat, State.A]

/-- `z` from the And, `n` and `v` from the data, and nothing else (R214). -/
theorem bitData_spec (s : State) (data : Word) :
    ((s.bitData data).z = true ↔ s.accNat &&& data.toNat = 0) ∧
    (s.bitData data).n = data.toNat.testBit (s.mBits - 1) ∧ (s.bitData data).v = data.toNat.testBit (s.mBits - 2) ∧
    Frame { flags := flagsNVZ } s (s.bitData data) := by
  refine ⟨?_, ?_, ?_, setFlags_frame ?_⟩
  · rw [State.bitData, (testBits_spec _ _).1, accNat_setV, accNat_setN]
  · simp [State.bitData, State.testBits, BitVec.getLsbD]
  · simp [State.bitData, State.testBits, BitVec.getLsbD]
  · simp [flagsNVZ, putBit_and_mask]

/-- Settles O40: the data are read and tested, in memory with their two top bits and as an immediate for `z` alone. -/
theorem bitTestsData : Obligations.BitTestsData := by
  refine ⟨fun mode s => ?_, fun v s => ?_⟩
  · obtain ⟨zero, sign, second, frame⟩ :=
      bitData_spec (s.readData s.mWidth (mode.ea s)).after (s.readData s.mWidth (mode.ea s)).value
    rw [readData_toNat, bits_mWidth] at zero sign second
    rw [readData_after, bits_mWidth] at zero sign second frame
    rw [State.perform_accNat] at zero
    rw [State.perform_mBits] at sign second
    refine ⟨_, exec_bitOf mode s, ?_⟩
    rw [readData_after, bits_mWidth, frame_advance]
    exact ⟨zero, sign, second, by simp, (perform_reads_frame s _).after frame rfl⟩
  · obtain ⟨zero, -⟩ := testBits_spec s ((Operand.imm v).load s).value
    rw [Operand.load_toNat] at zero
    exact ⟨_, immM_eq State.testBits v s, zero, rfl, (frame_advance _ _ _ _).2 (testBits_frame s _)⟩

/-! ### TRB and TSB (R215 to R217) -/

/-- What is written back has the bit `b` wherever the accumulator has a one, and the data's own bit elsewhere. -/
def PutsBit (f : Word → Word → Word) (b : Bool) : Prop :=
  ∀ (acc data : Word) (k : Nat), (f acc data).toNat.testBit k = if acc.toNat.testBit k then b else data.toNat.testBit k

theorem resetBits_putsBit : PutsBit resetBits false := by
  intro acc data k
  change (data &&& ~~~acc).getLsbD k = if acc.getLsbD k then false else data.getLsbD k
  rw [BitVec.getLsbD_and, BitVec.getLsbD_not]
  by_cases inWord : k < 16
  · cases acc.getLsbD k <;> simp [inWord]
  · simp [BitVec.getLsbD_of_ge _ _ (Nat.le_of_not_lt inWord)]

theorem setBits_putsBit : PutsBit setBits true := by
  intro acc data k
  change (data ||| acc).getLsbD k = if acc.getLsbD k then true else data.getLsbD k
  rw [BitVec.getLsbD_or]
  cases acc.getLsbD k <;> simp

/-- All data are read, they are written back with bits put, `z` is of the data as read, and `PC` moves on (R217). -/
theorem bits_put_in_memory {f : Word → Word → Word} {b : Bool} (hf : PutsBit f b) {i : Instr} (mode : MemMode) {s : State}
    (hwf : Memory.wf s.mem = true) (hexec : exec i s = testAndStore f mode.ea mode.len s) :
    ∃ t r, exec i s = .next t ∧
      (∀ k, r.testBit k = if s.accNat.testBit k then b else (s.dataNat s.mBits (mode.ea s)).testBit k) ∧
      (t.z = true ↔ s.accNat &&& s.dataNat s.mBits (mode.ea s) = 0) ∧ t.PC = s.PC + mode.len ∧
      Frame { flags := flagZ, accesses := readsAt (dataBytes s.mBits (mode.ea s)) ++ dataWrites s.mBits (mode.ea s) r } s t := by
  have put := hf s.acc (s.readData s.mWidth (mode.ea s)).value
  have data := readData_toNat s s.mWidth (mode.ea s)
  rw [bits_mWidth] at data
  rw [acc_toNat, data] at put
  rw [testAndStore_eq] at hexec
  refine ⟨_, _, hexec, put, ?_, by simp, ?_⟩
  · rw [State.z_advance, (testBits_spec _ _).1, State.perform_accNat, data]
  · exact (frame_advance _ _ _ _).2 ((readsThenData_frame hwf _ _ (mode.ea_ne s) _).after (testBits_frame _ _) rfl)

/-- Settles O41: TRB puts zeros and TSB ones, in each of the two modes. -/
theorem trbTsbStore : Obligations.TrbTsbStore := by
  intro s ll hhll hwf p hp
  simp only [List.mem_cons, List.not_mem_nil, or_false] at hp
  obtain rfl | rfl | rfl | rfl := hp
  · exact bits_put_in_memory resetBits_putsBit (.dir ll) hwf rfl
  · exact bits_put_in_memory resetBits_putsBit (.abs hhll) hwf rfl
  · exact bits_put_in_memory setBits_putsBit (.dir ll) hwf rfl
  · exact bits_put_in_memory setBits_putsBit (.abs hhll) hwf rfl

end Sys2Proof.Machine
end

section
/-! The statements of shifts and rotates (`43_shifts.md`): a shift of a word as one of numbers, with the carry taken in and the bit
shifted out, its result in the accumulator and back in memory. -/

namespace Sys2Proof.Machine

/-! ### The four shifts as numbers (R231 to R235) -/

/-- On words that fit the width `f` is what `g` is on numbers, its result fits the width, and `out` says when its flag is set.
The carry taken in is an argument; ASL and LSR do not look at it. -/
structure ShiftsBy (f : Width → Bool → Word → Word × Bool) (g : Nat → Nat → Nat → Nat) (out : Nat → Nat → Prop) : Prop where
  toNat : ∀ {w v}, v.toNat < 2 ^ bits w → ∀ c, (f w c v).1.toNat = g (bits w) (carryNat c) v.toNat
  lt : ∀ {w v}, v.toNat < 2 ^ bits w → ∀ c, (f w c v).1.toNat < 2 ^ bits w
  out : ∀ {w v}, v.toNat < 2 ^ bits w → ∀ c, (f w c v).2 = true ↔ out (bits w) v.toNat

theorem aslValue_shiftsBy :
    ShiftsBy (fun w _ v => aslValue w v) (fun n _ v => 2 * v % 2 ^ n) (fun n v => 2 ^ (n - 1) ≤ v) where
  toNat h _ := (aslValue_spec _ _ h).1
  lt h _ := (aslValue_spec _ _ h).2.1
  out h _ := (aslValue_spec _ _ h).2.2

theorem lsrValue_shiftsBy : ShiftsBy (fun w _ v => lsrValue w v) (fun _ _ v => v / 2) (fun _ v => v % 2 = 1) where
  toNat h _ := (lsrValue_spec _ _ h).1
  lt h _ := (lsrValue_spec _ _ h).2.1
  out h _ := (lsrValue_spec _ _ h).2.2

theorem rolValue_shiftsBy : ShiftsBy rolValue (fun n c v => 2 * v % 2 ^ n + c) (fun n v => 2 ^ (n - 1) ≤ v) where
  toNat h c := (rolValue_spec _ c _ h).1
  lt h c := (rolValue_spec _ c _ h).2.1
  out h c := (rolValue_spec _ c _ h).2.2

theorem rorValue_shiftsBy : ShiftsBy rorValue (fun n c v => v / 2 + c * 2 ^ (n - 1)) (fun _ v => v % 2 = 1) where
  toNat h c := (rorValue_spec _ c _ h).1
  lt h c := (rorValue_spec _ c _ h).2.1
  out h c := (rorValue_spec _ c _ h).2.2

/-! ### The flags of a shift (R230) -/

/-- `n` and `z` of a result that fits the width speak of the result itself (`00_scope.md` R16). -/
theorem shiftFlags_signZero {w : Width} {r : Word × Bool} (h : r.1.toNat < 2 ^ bits w) (s : State) :
    SignZero (bits w) r.1.toNat (s.shiftFlags w r) := by
  obtain ⟨signZero, -⟩ := shiftFlags_spec s w r
  rwa [Nat.mod_eq_of_lt h] at signZero

theorem accNat_shiftFlags (s : State) (w : Width) (r : Word × Bool) : (s.shiftFlags w r).accNat = s.accNat := by
  simp [State.accNat, State.shiftFlags, State.setNZ, State.A]

/-- A shifted value stored in the accumulator, with its flags: what each is then, and that nothing else has changed (R230). -/
theorem setAcc_shiftFlags_spec (s : State) {r : Word × Bool} (h : r.1.toNat < 2 ^ bits s.mWidth) :
    let t := (s.setAcc r.1).shiftFlags s.mWidth r
    t.accNat = r.1.toNat ∧ t.c = r.2 ∧ SignZero s.mBits r.1.toNat t ∧ (s.m = true → t.B = s.B) ∧
    Frame { C := true, flags := flagsNZC } s t := by
  obtain ⟨acc, keepsB⟩ := setAcc_spec s r.1
  obtain ⟨-, carry, frame⟩ := shiftFlags_spec (s.setAcc r.1) s.mWidth r
  have signZero := shiftFlags_signZero h (s.setAcc r.1)
  rw [bits_mWidth] at h signZero
  rw [Nat.mod_eq_of_lt h] at acc
  exact ⟨(accNat_shiftFlags _ _ _).trans acc, carry, signZero, keepsB, { frame with C := .inl rfl }⟩

/-! ### A shift where its operand is -/

section
variable {f : Width → Bool → Word → Word × Bool} {g : Nat → Nat → Nat → Nat} {out : Nat → Nat → Prop} (hf : ShiftsBy f g out)
include hf

/-- The accumulator is shifted, the flags follow the result and the bit shifted out, and `PC` moves on (R230). -/
theorem shiftsAcc_of_shiftAcc {i : Instr} (hexec : ∀ s, exec i s = shiftAcc (fun w v => f w s.c v) s) : ShiftsAcc i g out := by
  intro s
  have shifted := hf.toNat (acc_lt s) s.c
  have carry := hf.out (acc_lt s) s.c
  rw [bits_mWidth, acc_toNat] at shifted carry
  obtain ⟨acc, flag, signZero, keepsB, frame⟩ := setAcc_shiftFlags_spec s (hf.lt (acc_lt s) s.c)
  rw [← acc] at signZero shifted
  rw [← flag] at carry
  exact ⟨_, hexec s, shifted, carry, signZero, keepsB, rfl, (frame_advance _ _ _ _).2 frame⟩

/-- All data are read, they are written back shifted, the flags follow the result and the bit shifted out, and `PC` moves on (R230). -/
theorem shiftsData_of_shiftMem {i : Instr} {mode : MemMode}
    (hexec : ∀ s, exec i s = shiftMem (fun w v => f w s.c v) mode.ea mode.len s) : ShiftsData i g out mode.ea mode.len := by
  intro s hwf
  have data := readData_toNat s s.mWidth (mode.ea s)
  have narrow : (s.readData s.mWidth (mode.ea s)).value.toNat < 2 ^ bits s.mWidth := data ▸ dataNat_lt s s.mWidth (mode.ea s)
  have shifted := hf.toNat narrow s.c
  have carry := hf.out narrow s.c
  have signZero := shiftFlags_signZero (hf.lt narrow s.c)
  rw [data, bits_mWidth] at shifted carry
  rw [shifted, bits_mWidth] at signZero
  refine ⟨_, (hexec s).trans (shiftMem_eq ..), ?_, signZero _, by simp, ?_⟩
  · rw [← carry, State.c_advance, (shiftFlags_spec _ _ _).2.1]
  · rw [← shifted, frame_advance]
    exact (readsThenData_frame hwf _ _ (mode.ea_ne s) _).after (shiftFlags_spec _ _ _).2.2 rfl

end

/-- Settles O42: each of the four is its shift of the accumulator with the old carry. -/
theorem shiftsOfAccumulator : Obligations.ShiftsOfAccumulator :=
  ⟨shiftsAcc_of_shiftAcc aslValue_shiftsBy fun _ => rfl, shiftsAcc_of_shiftAcc lsrValue_shiftsBy fun _ => rfl,
    shiftsAcc_of_shiftAcc rolValue_shiftsBy fun _ => rfl, shiftsAcc_of_shiftAcc rorValue_shiftsBy fun _ => rfl⟩

/-- Settles O43: each of the four is its shift in the one read-modify-write of memory, in each mode. -/
theorem shiftsOfMemory : Obligations.ShiftsOfMemory := fun mode =>
  ⟨shiftsData_of_shiftMem aslValue_shiftsBy (exec_aslOf mode), shiftsData_of_shiftMem lsrValue_shiftsBy (exec_lsrOf mode),
    shiftsData_of_shiftMem rolValue_shiftsBy (exec_rolOf mode), shiftsData_of_shiftMem rorValue_shiftsBy (exec_rorOf mode)⟩

end Sys2Proof.Machine
end

section
/-! The statements of branches and jumps (`44_branches.md`, `45_jumps_calls.md`): where each goes, and that it does nothing on the way
but read its pointer. -/

namespace Sys2Proof.Machine

/-! ### The 8-bit branches (R241 to R250) -/

/-- A sign-extended byte is the same number modulo `2^16`. -/
theorem sext16_toNat (b : Byte) : ((sext16 b).toNat : Int) = b.toInt % 65536 := by
  simp only [sext16, BitVec.signExtend, BitVec.toNat_ofInt]
  omega

/-- The destination of a branch as a number: the displacement is signed, and the address wraps inside the bank (R147, R241). -/
theorem rel8Target_toNat (s : State) (ll : Byte) :
    ((s.rel8Target ll).toNat : Int) = ((s.PC.toNat : Int) + 2 + ll.toInt) % 65536 := by
  have displacement := sext16_toNat ll
  simp [State.rel8Target, displacement]

/-- An instruction that is the 8-bit branch on `cond` branches when `cond` holds. -/
theorem branchesOn_of_branch8 {i : Byte → Instr} {cond : State → Bool} (hexec : ∀ ll s, exec (i ll) s = branch8 (cond s) ll s) :
    BranchesOn i cond := by
  intro ll s
  refine ⟨_, hexec ll s, fun taken => ?_, fun notTaken => ?_, (frame_setPC _ _ _ _).2 (Frame.refl rfl s)⟩
  · simpa [taken] using rel8Target_toNat s ll
  · simp [notTaken]

/-- Settles O44: each of the nine is the 8-bit branch on its own condition. -/
theorem branchesFollowFlags : Obligations.BranchesFollowFlags :=
  ⟨branchesOn_of_branch8 fun _ _ => rfl, branchesOn_of_branch8 fun _ _ => rfl, branchesOn_of_branch8 fun _ _ => rfl,
    branchesOn_of_branch8 fun _ _ => rfl, branchesOn_of_branch8 fun _ _ => rfl, branchesOn_of_branch8 fun _ _ => rfl,
    branchesOn_of_branch8 fun _ _ => rfl, branchesOn_of_branch8 fun _ _ => rfl, branchesOn_of_branch8 fun _ _ => rfl⟩

/-! ### BRL and JMP (R251, R261 to R265) -/

/-- The destination of BRL: an unsigned displacement is enough modulo `2^16` (R148). -/
theorem rel16Target_eq_ofNat (s : State) (hhll : Word) :
    s.rel16Target hhll = BitVec.ofNat 16 (s.PC.toNat + 3 + hhll.toNat) := by
  simp [State.rel16Target, BitVec.ofNat_add]

/-- A jump to an address given by its bank and its offset. -/
theorem jumpLong_addr (s : State) (b : Byte) (w : Word) : s.jumpLong (addr b w) = (s.setK b).setPC w := by
  simp [State.jumpLong]

/-- A write of `K` changes nothing else. -/
theorem setK_frame (s : State) (b : Byte) : Frame { K := true } s (s.setK b) :=
  { Frame.refl (w := { K := true }) rfl s with K := .inl rfl }

section
variable {i : Instr} {target : State → Word} (pointer : State → List Addr)

/-- An instruction that reads its pointer and then writes `PC` jumps inside its bank (R251, R261, R263, R264). -/
theorem jumpsTo_of_setPC (hexec : ∀ s, exec i s = .next ((s.perform (readsAt (pointer s))).setPC (target s))) :
    JumpsTo i State.K target fun s => { accesses := readsAt (pointer s) } :=
  fun s => ⟨_, hexec s, by simp, rfl, (frame_setPC _ _ _ _).2 (perform_reads_frame s _)⟩

/-- An instruction that reads its pointer and then writes `K` and `PC` jumps to any bank (R262, R265). -/
theorem jumpsTo_of_setK_setPC {bank : State → Byte}
    (hexec : ∀ s, exec i s = .next (((s.perform (readsAt (pointer s))).setK (bank s)).setPC (target s))) :
    JumpsTo i bank target fun s => { K := true, accesses := readsAt (pointer s) } :=
  fun s => ⟨_, hexec s, rfl, rfl, (frame_setPC _ _ _ _).2 ((perform_reads_frame s _).after (setK_frame _ _) rfl)⟩

end

/-- Settles O45: each of the six is a jump after the reads of its pointer, which are none for BRL, JMP abs and JMP long. -/
theorem jumpsGoToTargets : Obligations.JumpsGoToTargets := by
  refine ⟨fun hhll => ⟨?brl, ?abs, ?absInd, ?absXInd, ?absLong⟩, fun hh mmll => ?long⟩
  case brl =>
    exact jumpsTo_of_setPC (fun _ => []) fun s =>
      congrArg (fun pc => Host.Outcome.next (s.setPC pc)) (rel16Target_eq_ofNat s hhll)
  case abs => exact jumpsTo_of_setPC (fun _ => []) fun _ => rfl
  case absInd => exact jumpsTo_of_setPC (fun _ => [addr 0 hhll, addr 0 (hhll + 1)]) fun _ => rfl
  case absXInd => exact jumpsTo_of_setPC (fun s => [addr s.K (hhll + s.X), addr s.K (hhll + s.X + 1)]) fun _ => rfl
  case absLong =>
    exact jumpsTo_of_setK_setPC (fun _ => [addr 0 hhll, addr 0 (hhll + 1), addr 0 (hhll + 2)]) fun _ =>
      congrArg Host.Outcome.next (jumpLong_addr ..)
  case long => exact jumpsTo_of_setK_setPC (fun _ => []) fun s => congrArg Host.Outcome.next (jumpLong_addr s hh mmll)

end Sys2Proof.Machine
end

section
/-! The statements of calls and returns (`45_jumps_calls.md`): what a push and a pull of two and of three bytes do, the calls and the
returns as these with a jump, and a return after its call, which reads back the bytes that the call left in RAM. -/

namespace Sys2Proof.Machine

/-! ### A frame when `S` and `K` are written -/

/-- Moving `S` changes nothing else. -/
theorem Frame.moveS {w : Writes} {s t : State} (h : Frame w s t) (hw : w.S = true) (k : Word) : Frame w s (t.moveS k) :=
  { h with S := .inl hw }

/-- Writing `K` changes nothing else. -/
theorem Frame.setK {w : Writes} {s t : State} (h : Frame w s t) (hw : w.K = true) (b : Byte) : Frame w s (t.setK b) :=
  { h with K := .inl hw }

/-- Where no flag is named, `P` has not changed. -/
theorem Frame.P_eq {w : Writes} {s t : State} (h : Frame w s t) (hw : w.flags = 0x00#8) : t.P = s.P := by
  have kept := h.P
  rw [hw, show ~~~0x00#8 = BitVec.allOnes 8 from rfl, BitVec.and_allOnes, BitVec.and_allOnes] at kept
  exact kept

/-- Accesses, then a move of `S`: the accesses have a frame of their own. -/
theorem moveS_frame {s t : State} {l : List Access} (h : Frame { accesses := l } s t) (k : Word) :
    Frame { S := true, accesses := l } s (t.moveS k) :=
  h.after ((Frame.refl (w := { S := true }) rfl t).moveS rfl k) rfl

/-- Accesses, a move of `S` and a write of `K`. -/
theorem moveS_setK_frame {s t : State} {l : List Access} (h : Frame { accesses := l } s t) (k : Word) (b : Byte) :
    Frame { K := true, S := true, accesses := l } s ((t.moveS k).setK b) :=
  h.after (((Frame.refl (w := { K := true, S := true }) rfl t).moveS rfl k).setK rfl b) rfl

/-! ### Stack addresses of new instructions, as the rules write them (R73) -/

theorem stackAddr_new_zero (s : State) : s.stackAddr .new 0 = addr 0 s.S := by rw [stackAddr_new, add_zero]; rfl

theorem stackAddr_new_neg (s : State) (k : Word) : s.stackAddr .new (-k) = addr 0 (s.S - k) := by
  rw [stackAddr_new, sub_eq_add_neg]; rfl

/-! ### The accesses of a push of 16 and of 24 bits (`20_memory.md` R75) -/

/-- The writes of a push of 16 bits: the high byte first, at the higher address. -/
def State.pushes16 (s : State) (age : Age) (v : Word) : List Access :=
  [.write (s.stackAddr age 0) (hi8 v), .write (s.stackAddr age (-1)) (lo8 v)]

/-- The writes of a push of 24 bits: the bank byte first. -/
def State.pushes24 (s : State) (age : Age) (b : Byte) (v : Word) : List Access :=
  [.write (s.stackAddr age 0) b, .write (s.stackAddr age (-1)) (hi8 v), .write (s.stackAddr age (-2)) (lo8 v)]

theorem push16_eq_pushes16 (s : State) (age : Age) (v : Word) :
    s.push16 age v = (s.perform (s.pushes16 age v)).moveS (-2) := push16_eq s age v

theorem push24_eq_pushes24 (s : State) (age : Age) (b : Byte) (v : Word) :
    s.push24 age b v = (s.perform (s.pushes24 age b v)).moveS (-3) := push24_eq s age b v

/-- Pushed bytes go to different addresses, also where the stack wraps in page 1. -/
theorem pushes16_nodup (s : State) (age : Age) (v : Word) : (storesOf (s.pushes16 age v)).Nodup := by
  have ne : s.stackAddr age 0 ≠ s.stackAddr age (-1) := stackAddr_ne s age (by decide)
  simpa [State.pushes16, storesOf] using ne

theorem pushes24_nodup (s : State) (age : Age) (b : Byte) (v : Word) : (storesOf (s.pushes24 age b v)).Nodup := by
  have ne01 : s.stackAddr age 0 ≠ s.stackAddr age (-1) := stackAddr_ne s age (by decide)
  have ne02 : s.stackAddr age 0 ≠ s.stackAddr age (-2) := stackAddr_ne s age (by decide)
  have ne12 : s.stackAddr age (-1) ≠ s.stackAddr age (-2) := stackAddr_ne s age (by decide)
  simpa [State.pushes24, storesOf] using ⟨⟨ne01, ne02⟩, ne12⟩

/-- The same in 16-bit arithmetic in bank 0, for a new instruction. -/
theorem pushes16_new (s : State) (v : Word) :
    s.pushes16 .new v = [.write (addr 0 s.S) (hi8 v), .write (addr 0 (s.S - 1)) (lo8 v)] := by
  rw [State.pushes16, stackAddr_new_zero, stackAddr_new_neg]

theorem pushes24_new (s : State) (b : Byte) (v : Word) :
    s.pushes24 .new b v =
      [.write (addr 0 s.S) b, .write (addr 0 (s.S - 1)) (hi8 v), .write (addr 0 (s.S - 2)) (lo8 v)] := by
  rw [State.pushes24, stackAddr_new_zero, stackAddr_new_neg, stackAddr_new_neg]

/-! ### Calls (R266 to R268) -/

/-- What is read does not depend on where `S` is. -/
theorem wordAfter_moveS (s : State) (k : Word) (l : List Access) (ea : DataAddr) :
    (s.moveS k).wordAfter l ea = s.wordAfter l ea := by
  simp only [State.wordAfter, State.readAfter, perform_moveS, read_moveS]

/-- JSR (abs,X): the pushes, then the reads of the pointer, which see the bytes pushed (R268). -/
theorem exec_jsrAbsXInd (s : State) (hhll : Word) :
    let pointer : DataAddr := { lo := addr s.K (hhll + s.X), hi := addr s.K (hhll + s.X + 1) }
    exec (.jsrAbsXInd hhll) s =
      .next (((s.perform (s.pushes16 .new (s.PC + 2) ++ readsAt [pointer.lo, pointer.hi])).moveS (-2)).setPC
        (s.wordAfter (s.pushes16 .new (s.PC + 2)) pointer)) := by
  intro pointer
  have arm : exec (.jsrAbsXInd hhll) s = execJsrAbsXInd hhll s := rfl
  have registers : (s.push16 .new (s.PC + 2)).absXPointer hhll = (s.push16 .new (s.PC + 2)).read16 pointer := by
    simp only [State.absXPointer, push16_eq_pushes16, moveS_K, moveS_X, State.perform_K, State.perform_X, pointer]
  rw [arm, execJsrAbsXInd, registers, read16_after, read16_value, push16_eq_pushes16, perform_moveS, ← State.perform_append,
    wordAfter_moveS, State.wordAfter_perform, List.append_nil]

/-- Settles O46: JSR is a push of 16 bits and a jump, with the reads of the pointer between them in its second form, JSL a push of 24
bits and a long jump; pushed bytes go to different addresses. -/
theorem callsPushAndJump : Obligations.CallsPushAndJump := by
  intro s hwf
  refine ⟨fun hhll => ?jsr, fun hhll => ?jsrInd, fun hh mmll => ?jsl⟩
  case jsr =>
    have frame := moveS_frame (perform_frame hwf _ (pushes16_nodup s .old (s.PC + 2))) (-2)
    exact ⟨_, rfl, by simp [push16_eq], rfl, (frame_setPC _ _ _ _).2 frame⟩
  case jsrInd =>
    intro pushes pointer
    have nodup : (storesOf (s.pushes16 .new (s.PC + 2) ++ readsAt [pointer.lo, pointer.hi])).Nodup := by
      rw [storesOf_append, storesOf_readsAt, List.append_nil]
      exact pushes16_nodup s .new _
    have frame := moveS_frame (perform_frame hwf _ nodup) (-2)
    have pushed : s.pushes16 .new (s.PC + 2) = pushes := pushes16_new s _
    refine ⟨_, exec_jsrAbsXInd s hhll, by simp, ?_, ?_⟩
    · rw [pushed]; rfl
    · rw [← pushed]; exact (frame_setPC _ _ _ _).2 frame
  case jsl =>
    have frame := moveS_setK_frame (perform_frame hwf _ (pushes24_nodup s .new s.K (s.PC + 3))) (-3) hh
    have call : exec (.jsl (addr hh mmll)) s =
        .next ((((s.perform (s.pushes24 .new s.K (s.PC + 3))).moveS (-3)).setK hh).setPC mmll) :=
      congrArg Host.Outcome.next (jumpLong_addr _ hh mmll)
    rw [pushes24_new] at frame call
    exact ⟨_, call, by simp, rfl, rfl, (frame_setPC _ _ _ _).2 frame⟩

/-! ### Returns (R269, R270) -/

theorem toNat_add_one (v : Word) : (v + 1).toNat = (v.toNat + 1) % 65536 := BitVec.toNat_add v 1

/-- RTL: three reads, then `S`, `K`, and `PC` one past what was pulled, in the bank pulled (R269). -/
theorem exec_rtl (s : State) :
    exec .rtl s =
      .next ((((s.perform (readsAt [addr 0 (s.S + 1), addr 0 (s.S + 2), addr 0 (s.S + 3)])).moveS 3).setK
        (s.readAfter (readsAt [addr 0 (s.S + 1), addr 0 (s.S + 2)]) (addr 0 (s.S + 3)))).setPC
        (s.wordAfter [] { lo := addr 0 (s.S + 1), hi := addr 0 (s.S + 2) } + 1)) := by
  have arm : exec .rtl s = execRtl s := rfl
  rw [arm, execRtl, pull24_after, pull24_value, bankOf_addr, offsetOf_addr, State.pulledPair, stackAddr_new, stackAddr_new,
    stackAddr_new]
  rfl

/-- Settles O47: each return is a pull, with `PC` one past what was pulled. -/
theorem returnsPullAndIncrement : Obligations.ReturnsPullAndIncrement := by
  intro s
  refine ⟨?rts, ?rtl⟩
  case rts =>
    exact ⟨_, rfl, toNat_add_one _, by simp [pull16_after], (frame_setPC _ _ _ _).2 (moveS_frame (perform_reads_frame s _) 2)⟩
  case rtl =>
    exact ⟨_, exec_rtl s, toNat_add_one _, rfl, by simp, (frame_setPC _ _ _ _).2 (moveS_setK_frame (perform_reads_frame s _) 3 _)⟩

/-! ### A return after its call (R260) -/

section
variable {w : Writes} {s t : State} (h : Frame w s t)
include h

/-- Reads between do not change what a byte written to RAM reads as. -/
theorem Frame.readAfter_of_stored {a : Addr} {v : Byte} (hp : .write a v ∈ w.accesses) (hk : s.kindAt a = .ram) (l : List Addr) :
    t.readAfter (readsAt l) a = v := by
  have notDevice : t.kindAt a ≠ .device := by simp [h.kindAt a, hk]
  exact (State.read_perform_reads l notDevice).trans ((h.stored a v hp).1 hk)

/-- A word whose bytes were written to RAM reads as that word. -/
theorem Frame.wordAfter_of_stored {ea : DataAddr} {v : Word} (hlo : .write ea.lo (lo8 v) ∈ w.accesses)
    (hhi : .write ea.hi (hi8 v) ∈ w.accesses) (klo : s.kindAt ea.lo = .ram) (khi : s.kindAt ea.hi = .ram) :
    t.wordAfter [] ea = v := by
  have low : t.readAfter [] ea.lo = lo8 v := h.readAfter_of_stored hlo klo []
  have high : t.readAfter [.read ea.lo] ea.hi = hi8 v := h.readAfter_of_stored hhi khi [ea.lo]
  rw [State.wordAfter, List.nil_append, low, high, word_hi8_lo8]

end

/-- The address a return goes to is one past the word it pulls. -/
theorem eq_add_one_of_toNat {v pc : Word} (h : pc.toNat = (v.toNat + 1) % 65536) : pc = v + 1 :=
  BitVec.eq_of_toNat_eq (h.trans (toNat_add_one v).symm)

/-- RTS reads what JSR wrote: both are old, so that the addresses agree also where the stack wraps in page 1. -/
theorem rts_undoes_jsr {s : State} (hhll : Word) (hinv : Inv s)
    (hram : ∀ a ∈ [s.stackAddr .old 0, s.stackAddr .old (-1)], s.kindAt a = .ram) :
    ∃ t u, exec (.jsrAbs hhll) s = .next t ∧ exec .rts t = .next u ∧ u.PC = s.PC + 3 ∧ u.K = s.K ∧ u.S = s.S ∧ u.P = s.P := by
  obtain ⟨forced, hwf⟩ := hinv
  simp only [List.forall_mem_cons, List.not_mem_nil, false_imp_iff, implies_true, and_true] at hram
  obtain ⟨ramHigh, ramLow⟩ := hram
  obtain ⟨jsr, -, -⟩ := callsPushAndJump s hwf
  obtain ⟨t, call, tS, -, called⟩ := jsr hhll
  obtain ⟨⟨u, back, uPC, uS, returned⟩, -⟩ := returnsPullAndIncrement t
  have te : t.e = s.e := called.e.resolve_left Bool.false_ne_true
  have tK : t.K = s.K := called.K.resolve_left Bool.false_ne_true
  have uK : u.K = t.K := returned.K.resolve_left Bool.false_ne_true
  have low : t.stackAddr .old 1 = s.stackAddr .old (-1) := stackAddr_old_moved te tS 1
  have high : t.stackAddr .old 2 = s.stackAddr .old 0 := stackAddr_old_moved te tS 2
  have sameS : t.stackMoved 2 = s.stackMoved 0 := stackMoved_moved te tS 2
  have pulled : t.wordAfter [] { lo := s.stackAddr .old (-1), hi := s.stackAddr .old 0 } = s.PC + 2 :=
    called.wordAfter_of_stored (by simp) (by simp) ramLow ramHigh
  rw [low, high, pulled] at uPC
  refine ⟨t, u, call, back, ?_, uK.trans tK, ?_, (returned.P_eq rfl).trans (called.P_eq rfl)⟩
  · rw [eq_add_one_of_toNat uPC, add_assoc]; rfl
  · rw [uS, sameS, stackMoved_zero forced]

/-- `S` moves down by `k` as a 16-bit number where it does not leave page 1 in emulation mode (R36, R77). -/
theorem stackMoved_neg {s : State} (forced : Forced s) {k : Word} (room : s.e = false ∨ k.toNat ≤ s.SL.toNat) :
    s.stackMoved (-k) = s.S - k := by
  cases he : s.e with
  | false => simp [State.stackMoved, he, sub_eq_add_neg]
  | true =>
    obtain ⟨emulation, -⟩ := forced
    obtain ⟨-, -, page⟩ := emulation he
    have enough : k.toNat ≤ s.SL.toNat := room.resolve_left (by simp [he])
    have inPage := congrArg BitVec.toNat page
    apply BitVec.eq_of_toNat_eq
    simp [State.stackMoved, he, State.SL, State.SH] at enough inPage ⊢
    omega

/-- RTL reads what JSL wrote where `S` does not leave page 1 in emulation mode: their addresses do not wrap in the page, as `S` does. -/
theorem rtl_undoes_jsl {s : State} (a : Addr) (hinv : Inv s) (room : s.e = false ∨ 3 ≤ s.SL.toNat)
    (hram : ∀ b ∈ [addr 0 s.S, addr 0 (s.S - 1), addr 0 (s.S - 2)], s.kindAt b = .ram) :
    ∃ t u, exec (.jsl a) s = .next t ∧ exec .rtl t = .next u ∧ u.PC = s.PC + 4 ∧ u.K = s.K ∧ u.S = s.S ∧ u.P = s.P := by
  obtain ⟨forced, hwf⟩ := hinv
  simp only [List.forall_mem_cons, List.not_mem_nil, false_imp_iff, implies_true, and_true] at hram
  obtain ⟨ramBank, ramHigh, ramLow⟩ := hram
  obtain ⟨-, -, jsl⟩ := callsPushAndJump s hwf
  obtain ⟨t, call, tS, -, -, called⟩ := jsl (bankOf a) (offsetOf a)
  rw [addr_bankOf_offsetOf] at call
  obtain ⟨-, u, back, uPC, uK, uS, returned⟩ := returnsPullAndIncrement t
  have te : t.e = s.e := called.e.resolve_left Bool.false_ne_true
  have sameS : t.stackMoved 3 = s.stackMoved 0 := stackMoved_moved te tS 3
  have flat : t.S = s.S - 3 := tS.trans (stackMoved_neg forced room)
  have low : t.S + 1 = s.S - 2 := by rw [flat]; bv_omega
  have high : t.S + 2 = s.S - 1 := by rw [flat]; bv_omega
  have bank : t.S + 3 = s.S := by rw [flat]; bv_omega
  have pulled : t.wordAfter [] { lo := addr 0 (s.S - 2), hi := addr 0 (s.S - 1) } = s.PC + 3 :=
    called.wordAfter_of_stored (by simp) (by simp) ramLow ramHigh
  have pulledBank : t.readAfter (readsAt [addr 0 (s.S - 2), addr 0 (s.S - 1)]) (addr 0 s.S) = s.K :=
    called.readAfter_of_stored (by simp) ramBank _
  rw [low, high] at uPC uK
  rw [pulled] at uPC
  rw [bank, pulledBank] at uK
  refine ⟨t, u, call, back, ?_, uK, ?_, (returned.P_eq rfl).trans (called.P_eq rfl)⟩
  · rw [eq_add_one_of_toNat uPC, add_assoc]; rfl
  · rw [uS, sameS, stackMoved_zero forced]

/-- Settles O48: JSR and RTS are both old and JSL and RTL both new, so that each return reads what its call wrote. -/
theorem returnUndoesCall : Obligations.ReturnUndoesCall :=
  ⟨fun _ hhll hinv hram => rts_undoes_jsr hhll hinv hram, fun _ a hinv room hram => rtl_undoes_jsl a hinv room hram⟩

end Sys2Proof.Machine
end

section
/-! The statements of a step's beginning (`60_exceptions.md` R440 to R442, `52_stp_wai.md` R381, R382): what reading an event does, and
which action recognition names. -/

namespace Sys2Proof.Machine

/-! ### Recognition -/

/-- A pending RESET makes the step the RESET sequence, in every run state (R442). -/
theorem step_of_reset {s : State} (h : s.poll.pending.reset = true) : step s = .next s.poll.resetSequence := by
  simp only [step, action_of_reset h]

/-- An interrupt that a step takes is entered with the current `PC` (R435, R436). -/
theorem step_of_takes {s : State} {k : Interrupt} (h : Takes s.poll k) :
    step s = .next (s.poll.enterInterrupt k s.poll.PC) := by
  simp only [step, action_of_takes h]

/-- With no RESET pending and no interrupt taken, recognition goes on to what is left (R440 to R442). -/
theorem first_of_none_taken {s : State} (hrun : s.run ≠ .stopped) (hreset : s.pending.reset = false)
    (hnone : ∀ k, ¬ Takes s k) (otherwise : Action) : s.pending.first s.i otherwise = otherwise := by
  have noAbort : s.pending.abort = false := by simpa [hrun, hreset] using hnone .abort
  have noNmi : s.pending.nmi = false := by simpa [hrun, hreset, noAbort] using hnone .nmi
  have noIrq : (s.pending.irq && !s.i) = false := by simpa [hrun, hreset, noAbort, noNmi] using hnone .irq
  simp [Requests.first, hreset, noAbort, noNmi, noIrq]

/-- With no event left the platform does nothing (log 6). -/
theorem takeEvent_of_nil {s : State} (h : s.events = []) : s.takeEvent = s := by
  unfold State.takeEvent
  rw [h]

/-- An event that is left is read, and its requests are pending (D6). -/
theorem takeEvent_of_cons {s : State} {ev : PlatformEvent} {rest : List PlatformEvent} (h : s.events = ev :: rest) :
    s.takeEvent = (s.setPending (s.pending.after ev)).setEvents rest := by
  unfold State.takeEvent
  rw [h]

/-- Settles O17, by whether an event is left. -/
theorem pollTakesOneEvent : Obligations.PollTakesOneEvent := by
  refine ⟨fun s hnone => ?_, fun s ev rest hsome => ?_⟩
  · rw [State.poll, takeEvent_of_nil hnone]
    rfl
  · rw [State.poll, takeEvent_of_cons hsome]
    rfl

/-- Settles O18: the action that recognition names, in the order of the requests. -/
theorem requestsComeFirst : Obligations.RequestsComeFirst := by
  intro s hrun
  refine ⟨step_of_reset, fun _ => step_of_takes, fun hreset hnone => ?_⟩
  have goesOn := first_of_none_taken hrun hreset hnone
  refine ⟨fun running => ?_, fun waiting irq => ?_, fun waiting noIrq => ?_⟩
  · have action : s.poll.action = .execute := by rw [State.action, running]; exact goesOn _
    simp only [step, action]
  · have action : s.poll.action = .wake := by rw [State.action, waiting]; dsimp only; rw [goesOn, irq]; rfl
    simp only [step, action]
  · have action : s.poll.action = .idle := by rw [State.action, waiting]; dsimp only; rw [goesOn, noIrq]; rfl
    simp only [step, action]

/-- Settles O19: without RESET the action is to do nothing, and reading the event moves no register and no byte. -/
theorem stoppedUntilReset : Obligations.StoppedUntilReset := by
  intro s hstopped
  refine ⟨fun reset => ⟨_, step_of_reset reset, rfl⟩, fun noReset => ⟨s.poll, ?_, rfl, ?_, ?_, ?_, ?_⟩⟩
  · have action : s.poll.action = .idle := by simp [State.action, hstopped, noReset]
    simp only [step, action]
  all_goals simp [hstopped]

end Sys2Proof.Machine
end

section
/-! The statements of interrupts (`60_exceptions.md`, `46_software_interrupts.md`): the frame of an entry in each mode as the rules write
it, the entries, RTI, and RTI after an entry, which reads back the bytes that the entry left in RAM. -/

namespace Sys2Proof.Machine

/-! ### The frame of an entry in each mode (R430, R431, R433) -/

theorem framePushes_native {s : State} (he : s.e = false) (k : Interrupt) (ret : Word) :
    s.framePushes k ret = [.write (addr 0 s.S) s.K, .write (addr 0 (s.S - 1)) (hi8 ret), .write (addr 0 (s.S - 2)) (lo8 ret),
      .write (addr 0 (s.S - 3)) s.P] := by
  have flat : ¬ s.stackWraps .old = true := by simp [State.stackWraps, he]
  simp [State.framePushes, he, stackAddr_of_not_wraps flat, sub_eq_add_neg]

theorem framePushes_emulation {s : State} (he : s.e = true) (k : Interrupt) (ret : Word) :
    s.framePushes k ret = [.write (addr 0 (word 1 s.SL)) (hi8 ret), .write (addr 0 (word 1 (s.SL - 1))) (lo8 ret),
      .write (addr 0 (word 1 (s.SL - 2))) (if breakBit k then s.P ||| 0x10#8 else s.P &&& 0xEF#8)] := by
  have wraps : s.stackWraps .old = true := by simp [State.stackWraps, he]
  have zero : s.SL + lo8 0 = s.SL := by simp [lo8]
  have one : s.SL + lo8 (-1) = s.SL - 1 := by rw [sub_eq_add_neg]; rfl
  have two : s.SL + lo8 (-2) = s.SL - 2 := by rw [sub_eq_add_neg]; rfl
  simp only [State.framePushes, he, if_true, stackAddr_of_wraps wraps, zero, one, two]
  rfl

/-- An entry in either mode, with the frame and the vector of that mode (R425, R430). -/
theorem enterInterrupt_enters {s : State} (hwf : Memory.wf s.mem = true) (k : Interrupt) (ret : Word) :
    (s.e = false → EntersNative s (s.enterInterrupt k ret) ret (vectorOf k false)) ∧
    (s.e = true → EntersEmulation s (s.enterInterrupt k ret) ret (vectorOf k true) (breakBit k)) := by
  obtain ⟨moved, -, entered⟩ := enterInterrupt_spec hwf k ret
  refine ⟨fun he => ⟨?_, ?_⟩, fun he => ⟨?_, ?_⟩⟩
  · rw [moved, State.stackMoved, State.frameStep, he, sub_eq_add_neg]; rfl
  · rw [← framePushes_native he k ret, ← he]; exact entered
  · rw [moved, State.stackMoved, State.frameStep, he, sub_eq_add_neg]; rfl
  · rw [← framePushes_emulation he k ret, ← he]; exact entered

/-- Settles O20: the entry of BRK, which takes no request from the pending set. -/
theorem brkTakesItsInterrupt : Obligations.BrkTakesItsInterrupt := by
  intro s hwf
  obtain ⟨-, pending, -⟩ := enterInterrupt_spec hwf .brk (s.PC + 2)
  exact ⟨_, rfl, pending, enterInterrupt_enters hwf .brk (s.PC + 2)⟩

/-- Settles O21: the entry of COP, whose meaning does not look at the signature byte. -/
theorem copTakesItsInterrupt : Obligations.CopTakesItsInterrupt := by
  intro sig s hwf
  obtain ⟨-, pending, -⟩ := enterInterrupt_spec hwf .cop (s.PC + 2)
  exact ⟨_, rfl, pending, enterInterrupt_enters hwf .cop (s.PC + 2)⟩

/-- ABORT and NMI leave the pending set when taken, and nothing else does (D6). -/
theorem take_eq (r : Requests) (k : Interrupt) :
    r.take k = { r with abort := r.abort && decide (k ≠ .abort), nmi := r.nmi && decide (k ≠ .nmi) } := by
  cases k <;> simp [Requests.take]

/-- A step that takes an interrupt enters it from the state that reading the event left (R435, R436). -/
theorem interrupt_step_enters {s : State} {k : Interrupt} (hwf : Memory.wf s.mem = true) (htakes : Takes s.poll k) :
    ∃ t, step s = .next t ∧
      (s.e = false → EntersNative s.poll t s.PC (vectorOf k false)) ∧
      (s.e = true → EntersEmulation s.poll t s.PC (vectorOf k true) (breakBit k)) ∧
      t.pending = { s.poll.pending with
        abort := s.poll.pending.abort && decide (k ≠ .abort)
        nmi := s.poll.pending.nmi && decide (k ≠ .nmi) } := by
  have polled : Memory.wf s.poll.mem = true := by rwa [poll_mem]
  obtain ⟨-, pending, -⟩ := enterInterrupt_spec polled k s.poll.PC
  obtain ⟨native, emulation⟩ := enterInterrupt_enters polled k s.poll.PC
  rw [poll_e, poll_PC] at native emulation
  rw [take_eq, poll_PC] at pending
  refine ⟨_, step_of_takes htakes, ?_⟩
  rw [poll_PC]
  exact ⟨native, emulation, pending⟩

/-- Settles O22: each of the three is the entry that a step makes, with its own vectors. -/
theorem hardwareInterruptsEnter : Obligations.HardwareInterruptsEnter := by
  intro s k native emulation hk hwf htakes
  have entered := interrupt_step_enters hwf htakes
  simp only [List.mem_cons, List.not_mem_nil, or_false, Prod.mk.injEq] at hk
  obtain ⟨rfl, rfl, rfl⟩ | ⟨rfl, rfl, rfl⟩ | ⟨rfl, rfl, rfl⟩ := hk
  · exact entered
  · exact entered
  · exact entered

/-! ### RTI (`46_software_interrupts.md` R285) -/

/-- Settles O23: the registers that RTI writes, in each mode, and its reads. -/
theorem rtiReturns : Obligations.RtiReturns := by
  intro s a
  refine ⟨_, rfl, leaveInterrupt_PC s, fun native => ⟨?_, ?_, ?_⟩, fun emulation => ⟨?_, ?_, ?_⟩, leaveInterrupt_X s,
    leaveInterrupt_Y s, leaveInterrupt_frame s⟩
  · simp [statusForced, native, a]
  · simp [native, a]
  · simp [State.stackMoved, State.frameStep, native]
  · simp [statusForced, emulation, a]
  · simp [emulation]
  · rw [leaveInterrupt_S, State.stackMoved, State.frameStep, emulation]; rfl

/-! ### RTI after an entry (R438, R446) -/

/-- An index register whose high byte is `$00` where `x = 1` is what its forcing makes of it (R36). -/
theorem indexForced_of_high {x : Bool} {w : Word} (h : x = true → hi8 w = 0x00#8) : indexForced x w = w := by
  cases x with
  | false => rfl
  | true =>
    have high := congrArg BitVec.toNat (h rfl)
    apply BitVec.eq_of_toNat_eq
    simp [indexForced] at high ⊢
    omega

/-- Under the forcing rule the `P` pushed by an entry, pulled again, is `P` itself: in emulation mode bits 5 and 4 are 1 (R36, R433). -/
theorem statusForced_pushedP {s : State} (forced : Forced s) (k : Interrupt) : statusForced s.e (s.pushedP k) = s.P := by
  cases he : s.e with
  | false => simp [statusForced, State.pushedP, he]
  | true =>
    obtain ⟨emulation, -⟩ := forced
    obtain ⟨m, x, -⟩ := emulation he
    apply BitVec.eq_of_getLsbD_eq
    intro j hj
    have others := bitAt_putBit s.P 4 j (breakBit k) (by decide) hj
    simp only [bitAt] at others
    simp only [statusForced, State.pushedP, he, if_true, BitVec.getLsbD_or, others]
    simp only [State.m, State.x, bitAt] at m x
    interval_cases j <;> simp [m, x]

/-- Accesses of which none is a device's are not among those that devices have had (R87). -/
theorem logged_append_of_ne_device {s : State} {l : List Access} (h : ∀ x ∈ l, s.kindAt x.addr ≠ .device) (l' : List Access) :
    s.logged (l ++ l') = s.logged l' := by
  rw [State.logged, List.filter_append, List.filter_eq_nil_iff.2 (by simpa using h)]
  rfl

/-- Each push of the frame is at one of its addresses. -/
theorem framePushes_addr {s : State} {k : Interrupt} {ret : Word} {x : Access} (h : x ∈ s.framePushes k ret) :
    x.addr ∈ s.frameAddrs := by
  have addrs : (s.framePushes k ret).map Access.addr = s.frameAddrs := by
    unfold State.framePushes State.frameAddrs
    split <;> rfl
  exact addrs ▸ List.mem_map_of_mem h

/-- The frame as RTI finds it: upwards from the new `S` the pushed `P`, the return address, and in native mode `K` (R285, R431). -/
theorem mem_framePushes (s : State) (k : Interrupt) (ret : Word) :
    let a := fun j : Word => s.stackAddr .old (-s.frameStep + j)
    .write (a 1) (s.pushedP k) ∈ s.framePushes k ret ∧ .write (a 2) (lo8 ret) ∈ s.framePushes k ret ∧
    .write (a 3) (hi8 ret) ∈ s.framePushes k ret ∧ (s.e = false → .write (a 4) s.K ∈ s.framePushes k ret) := by
  cases he : s.e <;> simp [State.framePushes, State.frameStep, State.pushedP, he]

/-- An interrupt was entered from `s` to `t` with a frame that lies in RAM. -/
structure EnteredInRam (s t : State) (k : Interrupt) (ret : Word) : Prop where
  S : t.S = s.stackMoved (-s.frameStep)
  K : t.K = 0x00#8
  frame : Frame { K := true, S := true, run := true, pending := true, flags := 0x0C#8, accesses := s.entryAccesses k ret } s t
  ram : ∀ a ∈ s.frameAddrs, s.kindAt a = .ram

theorem enterInterrupt_enteredInRam {s : State} (hwf : Memory.wf s.mem = true) (k : Interrupt) (ret : Word)
    (hram : ∀ a ∈ s.frameAddrs, s.kindAt a = .ram) : EnteredInRam s (s.enterInterrupt k ret) k ret := by
  obtain ⟨moved, -, -, -, bank, -, -, frame⟩ := enterInterrupt_spec hwf k ret
  exact ⟨moved, bank, frame, hram⟩

section
variable {s t : State} {k : Interrupt} {ret : Word} (h : EnteredInRam s t k ret)
include h

theorem EnteredInRam.e : t.e = s.e := h.frame.e.resolve_left Bool.false_ne_true

theorem EnteredInRam.frameStep : t.frameStep = s.frameStep := by rw [State.frameStep, State.frameStep, h.e]

/-- RTI's stack addresses are those of the frame, also where the stack wraps in page 1 (R73, R77). -/
theorem EnteredInRam.stackAddr (j : Word) : t.stackAddr .old j = s.stackAddr .old (-s.frameStep + j) :=
  stackAddr_old_moved h.e h.S j

/-- A byte of the frame reads back as what was pushed. -/
theorem EnteredInRam.readAfter {a : Addr} {v : Byte} (hp : .write a v ∈ s.framePushes k ret) (l : List Addr) :
    t.readAfter (readsAt l) a = v :=
  h.frame.readAfter_of_stored (List.mem_append_left _ hp) (h.ram a (framePushes_addr hp)) l

/-- RTI pulls the byte pushed for `P`. -/
theorem EnteredInRam.pulled_P : t.read (t.stackAddr .old 1) = s.pushedP k := by
  obtain ⟨pushedP, -, -, -⟩ := mem_framePushes s k ret
  rw [h.stackAddr]
  exact h.readAfter pushedP []

/-- RTI pulls the return address. -/
theorem EnteredInRam.pulled_PC :
    t.wordAfter [.read (t.stackAddr .old 1)] { lo := t.stackAddr .old 2, hi := t.stackAddr .old 3 } = ret := by
  obtain ⟨-, pushedLow, pushedHigh, -⟩ := mem_framePushes s k ret
  have low : t.readAfter [.read (t.stackAddr .old 1)] (t.stackAddr .old 2) = lo8 ret := by
    rw [h.stackAddr 2]
    exact h.readAfter pushedLow [_]
  have high : t.readAfter [.read (t.stackAddr .old 1), .read (t.stackAddr .old 2)] (t.stackAddr .old 3) = hi8 ret := by
    rw [h.stackAddr 3]
    exact h.readAfter pushedHigh [_, _]
  exact (congrArg₂ word high low).trans (word_hi8_lo8 ret)

/-- RTI pulls `K` in native mode. -/
theorem EnteredInRam.pulled_K (native : s.e = false) :
    t.readAfter (readsAt [t.stackAddr .old 1, t.stackAddr .old 2, t.stackAddr .old 3]) (t.stackAddr .old 4) = s.K := by
  obtain ⟨-, -, -, pushedK⟩ := mem_framePushes s k ret
  rw [h.stackAddr 4]
  exact h.readAfter (pushedK native) _

/-- RTI reads no device. -/
theorem EnteredInRam.rtiReads_ne_device : ∀ x ∈ t.rtiReads, t.kindAt x.addr ≠ .device := by
  have inRam : ∀ {a : Addr} {v : Byte}, .write a v ∈ s.framePushes k ret → t.kindAt a ≠ .device := fun {a _} hp => by
    simp [h.frame.kindAt a, h.ram a (framePushes_addr hp)]
  obtain ⟨pushedP, pushedLow, pushedHigh, pushedK⟩ := mem_framePushes s k ret
  rw [State.rtiReads, h.e]
  simp only [h.stackAddr]
  cases he : s.e with
  | false =>
    simp only [Bool.false_eq_true, if_false, readsAt_cons, List.forall_mem_cons]
    exact ⟨inRam pushedP, inRam pushedLow, inRam pushedHigh, inRam (pushedK he), List.forall_mem_nil _⟩
  | true =>
    simp only [if_true, readsAt_cons, List.forall_mem_cons]
    exact ⟨inRam pushedP, inRam pushedLow, inRam pushedHigh, List.forall_mem_nil _⟩

/-- Of the entry's accesses and RTI's reads only those of the vector can be a device's. -/
theorem EnteredInRam.leave_deviceLog : t.leaveInterrupt.deviceLog =
    s.logged (readsAt [(s.vectorPair (vectorOf k s.e)).lo, (s.vectorPair (vectorOf k s.e)).hi]) := by
  have framed : ∀ x ∈ s.framePushes k ret, s.kindAt x.addr ≠ .device := fun x hx => by simp [h.ram _ (framePushes_addr hx)]
  calc t.leaveInterrupt.deviceLog = t.logged t.rtiReads := (leaveInterrupt_frame t).deviceLog
    _ = t.deviceLog := State.logged_of_ne_device h.rtiReads_ne_device
    _ = s.logged (s.entryAccesses k ret) := h.frame.deviceLog
    _ = _ := logged_append_of_ne_device framed _

/-- The entry writes its frame and RTI writes nothing. -/
theorem EnteredInRam.leave_read {a : Addr} (ha : a ∉ s.frameAddrs) (hk : s.kindAt a ≠ .device) :
    t.leaveInterrupt.read a = s.read a := by
  have returned : t.leaveInterrupt.read a = t.read a :=
    (leaveInterrupt_frame t).read_eq (by simp [State.rtiReads]) (by rwa [h.frame.kindAt])
  have entered : t.read a = s.read a :=
    h.frame.read_eq (by simpa [State.entryAccesses, storesOf_framePushes, storesOf] using ha) hk
  exact returned.trans entered

/-- RTI pulls what the entry pushed, so that `P` is as it was (R285, R430). -/
theorem EnteredInRam.leave_P (forced : Forced s) : t.leaveInterrupt.P = s.P := by
  rw [leaveInterrupt_P, h.pulled_P, h.e, statusForced_pushedP forced]

theorem EnteredInRam.leave_S (forced : Forced s) : t.leaveInterrupt.S = s.S := by
  rw [leaveInterrupt_S, h.frameStep, stackMoved_moved h.e h.S, neg_add_cancel]
  exact stackMoved_zero forced

end

/-- Settles O24: RTI reads the frame back, and the registers outside it are written by neither. -/
theorem rtiUndoesEntry : Obligations.RtiUndoesEntry := by
  rintro s k ret ⟨forced, hwf⟩ hram
  have h := enterInterrupt_enteredInRam hwf k ret hram
  generalize s.enterInterrupt k ret = t at h
  have status := h.leave_P forced
  have ⟨_, narrow⟩ := forced
  have keptX : t.X = s.X := h.frame.X.resolve_left Bool.false_ne_true
  have keptY : t.Y = s.Y := h.frame.Y.resolve_left Bool.false_ne_true
  have sameFlag : t.leaveInterrupt.x = s.x := congrArg (bitAt · 4) status
  refine ⟨_, rfl, ?PC, status, fun native => ?nativeK, fun emulation => ?emulationK, ?C, ?X, ?Y, h.leave_S forced, ?D, ?DBR, ?e,
    h.leave_deviceLog, fun _ => h.leave_read⟩
  case PC => rw [leaveInterrupt_PC, h.pulled_PC]
  case nativeK => rw [leaveInterrupt_K, h.e, native, if_neg Bool.false_ne_true, h.pulled_K native]
  case emulationK => rw [leaveInterrupt_K, h.e, emulation, if_pos rfl, h.K]
  case C => exact (leaveInterrupt_C t).trans (h.frame.C.resolve_left Bool.false_ne_true)
  case X => rw [leaveInterrupt_X, sameFlag, keptX, indexForced_of_high fun hx => (narrow hx).1]
  case Y => rw [leaveInterrupt_Y, sameFlag, keptY, indexForced_of_high fun hx => (narrow hx).2]
  case D => exact (leaveInterrupt_D t).trans (h.frame.D.resolve_left Bool.false_ne_true)
  case DBR => exact (leaveInterrupt_DBR t).trans (h.frame.DBR.resolve_left Bool.false_ne_true)
  case e => exact (leaveInterrupt_e t).trans h.e

end Sys2Proof.Machine
end

section
/-! The statements of flag instructions, loads, stores, transfers and idle instructions (`47_flag_instr.md`, `48_load_store.md`,
`50_nop_wdm.md`, `52_stp_wai.md`, `53_transfers.md`): what a write to one register changes, with `n` and `z` set from what is written,
and where that comes from. -/

namespace Sys2Proof.Machine

/-! ### Flags (R290 to R299) -/

/-- The instruction that replaces bit `k` of `P` is the one that puts that flag. -/
theorem putsFlag_of_putBit {i : Instr} {k : Nat} {value : Bool} (hk : k < 8)
    (hexec : ∀ s, exec i s = plain (fun s => s.setFlags (putBit s.P k value)) 1 s) : PutsFlag i (1#8 <<< k) value := by
  intro s
  have others : putBit s.P k value &&& ~~~(1#8 <<< k) = s.P &&& ~~~(1#8 <<< k) :=
    putBit_and_mask _ _ _ _ (by simp [hk])
  exact ⟨_, hexec s, rfl, rfl, (frame_advance _ _ _ _).2 (setFlags_frame others)⟩

/-- A write to all of `P` under the forcing rule: what it leaves in `P` and in the index registers, and nothing else (R36). -/
theorem setP_spec (s : State) (p : Byte) :
    (s.setP p).P = (if s.e then p ||| 0x30#8 else p) ∧ (s.setP p).X = indexKept (s.setP p).x s.X ∧
    (s.setP p).Y = indexKept (s.setP p).x s.Y ∧ Frame { X := true, Y := true, flags := 0xFF#8 } s (s.setP p) :=
  ⟨rfl, rfl, rfl, { Frame.refl (w := { X := true, Y := true, flags := 0xFF#8 }) rfl s with
    X := .inl rfl, Y := .inl rfl, P := by simp }⟩

/-- Settles O49: each of the seven replaces its bit, and REP and SEP write all of `P`. -/
theorem flagInstructions : Obligations.FlagInstructions := by
  refine ⟨putsFlag_of_putBit (k := 0) (by decide) fun _ => rfl, putsFlag_of_putBit (k := 3) (by decide) fun _ => rfl,
    putsFlag_of_putBit (k := 2) (by decide) fun _ => rfl, putsFlag_of_putBit (k := 6) (by decide) fun _ => rfl,
    putsFlag_of_putBit (k := 0) (by decide) fun _ => rfl, putsFlag_of_putBit (k := 3) (by decide) fun _ => rfl,
    putsFlag_of_putBit (k := 2) (by decide) fun _ => rfl, fun mask s p hp => ?_⟩
  have written : exec p.1 s = .next ((s.setP p.2).advance 2) := by
    simp only [List.mem_cons, List.not_mem_nil, or_false] at hp
    obtain rfl | rfl := hp
    · rfl
    · rfl
  obtain ⟨status, keptX, keptY, frame⟩ := setP_spec s p.2
  exact ⟨_, written, status, keptX, keptY, rfl, (frame_advance _ _ _ _).2 frame⟩

/-! ### LDA (R311) -/

/-- Settles O50: LDA is the operation on the accumulator and the data whose result is the data. -/
theorem ldaLoads : Obligations.LdaLoads := by
  have data : BitwiseAs (fun _ b => b) fun _ b => b := ⟨fun _ _ => rfl, fun _ fits => fits⟩
  exact fun o s => bitwise_on_accumulator data o s (exec_ldaOf o s)

/-! ### Writes of one register, and `n` and `z` -/

theorem setC_frame (s : State) (v : Word) : Frame { C := true } s (s.setC v) :=
  { Frame.refl (w := { C := true }) rfl s with C := .inl rfl }
theorem setD_frame (s : State) (v : Word) : Frame { D := true } s (s.setD v) :=
  { Frame.refl (w := { D := true }) rfl s with D := .inl rfl }
theorem setDBR_frame (s : State) (v : Byte) : Frame { DBR := true } s (s.setDBR v) :=
  { Frame.refl (w := { DBR := true }) rfl s with DBR := .inl rfl }
theorem setX_frame (s : State) (v : Word) : Frame { X := true } s (s.setX v) :=
  { Frame.refl (w := { X := true }) rfl s with X := .inl rfl }
theorem setY_frame (s : State) (v : Word) : Frame { Y := true } s (s.setY v) :=
  { Frame.refl (w := { Y := true }) rfl s with Y := .inl rfl }
theorem setS_frame (s : State) (v : Word) : Frame { S := true } s (s.setS v) :=
  { Frame.refl (w := { S := true }) rfl s with S := .inl rfl }
theorem setRun_frame (s : State) (r : RunState) : Frame { run := true } s (s.setRun r) :=
  { Frame.refl (w := { run := true }) rfl s with run := .inl rfl }

/-- Setting `n` and `z` changes nothing but them. -/
theorem Frame.setNZ {w : Writes} {s t : State} (h : Frame w s t) (hw : w.flags = 0x00#8) (n : Width) (v : Word) :
    Frame { w with flags := flagsNZ } s (t.setNZ n v) := by
  obtain ⟨-, flags⟩ := setNZ_spec t n v
  exact { h with P := flags.P.trans (by rw [h.P_eq hw]) }

/-- `put` writes to a register of width `width`, as the number `reg`, a word that fits it, and changes nothing but what `w` names. -/
structure WritesRegister (put : State → Word → State) (reg : State → Nat) (width : State → Width) (w : Writes) : Prop where
  reg : ∀ {s : State} {v : Word}, v.toNat < 2 ^ bits (width s) → ∀ len, reg (((put s v).setNZ (width s) v).advance len) = v.toNat
  width : ∀ {s t : State}, t.P = s.P → width t = width s
  PC : ∀ s v, (put s v).PC = s.PC
  S : ∀ s v, (put s v).S = s.S
  frame : ∀ s v, Frame w s (put s v)
  accesses : w.accesses = []
  flags : w.flags = 0x00#8

theorem mWidth_congr {s t : State} (h : t.P = s.P) : t.mWidth = s.mWidth := by rw [State.mWidth, State.m, h]; rfl
theorem xWidth_congr {s t : State} (h : t.P = s.P) : t.xWidth = s.xWidth := by rw [State.xWidth, State.x, h]; rfl

theorem setAcc_writes : WritesRegister State.setAcc State.accNat State.mWidth { C := true } where
  reg {s v} fits len := by
    rw [bits_mWidth] at fits
    rw [accNat_advance, accNat_setNZ, (setAcc_spec s v).1, Nat.mod_eq_of_lt fits]
  width := mWidth_congr
  PC _ _ := rfl
  S _ _ := rfl
  frame s _ := setC_frame s _
  accesses := rfl
  flags := rfl

theorem setX_writes : WritesRegister State.setX (fun t => t.X.toNat) State.xWidth { X := true } where
  reg fits _ := congrArg BitVec.toNat (indexForced_of_lt fits)
  width := xWidth_congr
  PC _ _ := rfl
  S _ _ := rfl
  frame := setX_frame
  accesses := rfl
  flags := rfl

theorem setY_writes : WritesRegister State.setY (fun t => t.Y.toNat) State.xWidth { Y := true } where
  reg fits _ := congrArg BitVec.toNat (indexForced_of_lt fits)
  width := xWidth_congr
  PC _ _ := rfl
  S _ _ := rfl
  frame := setY_frame
  accesses := rfl
  flags := rfl

theorem setD_writes : WritesRegister State.setD (fun t => t.D.toNat) (fun _ => .w16) { D := true } where
  reg _ _ := rfl
  width _ := rfl
  PC _ _ := rfl
  S _ _ := rfl
  frame := setD_frame
  accesses := rfl
  flags := rfl

theorem setDBR_writes : WritesRegister (fun s v => s.setDBR (lo8 v)) (fun t => t.DBR.toNat) (fun _ => .w8) { DBR := true } where
  reg {_ v} fits _ := (lo8_toNat v).trans (Nat.mod_eq_of_lt fits)
  width _ := rfl
  PC _ _ := rfl
  S _ _ := rfl
  frame s _ := setDBR_frame s _
  accesses := rfl
  flags := rfl

/-! ### LDX and LDY (R312, R313) -/

section
variable {i : Instr} {f : State → Word → State} {put : State → Word → State} {reg : State → Word} {w : Writes}
  (hput : WritesRegister put (fun t => (reg t).toNat) State.xWidth w)
  (hf : ∀ s data, f s data = (put s data).setNZ s.xWidth data)
include hput hf

/-- The data are read, the register receives them, `n` and `z` follow them, and `PC` moves on. -/
theorem loadsIndex_of_exec {data : Source} {len : State → Word} (v : State → Word) (hv : ∀ s, data.Loaded s s.xWidth (v s))
    (hexec : ∀ s, exec i s = .next ((f (s.perform (data.accesses s)) (v s)).advance (len s))) :
    LoadsIndex i reg w data len := by
  intro s
  have loaded := hv s
  have fits := loaded.lt
  rw [← s.perform_xWidth (data.accesses s)] at fits
  have held := hput.reg fits (len s)
  have signZero := setNZ_signZero fits (put (s.perform (data.accesses s)) (v s))
  have written := (hput.frame (s.perform (data.accesses s)) (v s)).setNZ hput.flags (s.perform (data.accesses s)).xWidth (v s)
  rw [loaded.val] at held signZero
  rw [bits_xWidth, State.perform_xBits] at signZero
  refine ⟨_, hexec s, ?_⟩
  rw [hf]
  refine ⟨held, signZero, ?_, (frame_advance _ _ _ _).2 (loaded.frame.after written hput.accesses)⟩
  rw [State.advance_PC, setNZ_PC, hput.PC, State.perform_PC]

theorem loadsIndex_of_immX {v : Word} (hexec : ∀ s, exec i s = immX f v s) :
    LoadsIndex i reg w (indexImm v) (fun s => if s.x then 2 else 3) :=
  loadsIndex_of_exec hput hf (fun s => immData s.xWidth v) (indexImm_loaded v) fun s => by
    rw [hexec, immX, immLen_xWidth]
    rfl

theorem loadsIndex_of_loadX {ea : State → DataAddr} {len : Word} (hexec : ∀ s, exec i s = loadX f ea len s) :
    LoadsIndex i reg w (indexAt ea) (fun _ => len) :=
  loadsIndex_of_exec hput hf (fun s => (s.readData s.xWidth (ea s)).value) (indexAt_loaded ea) fun s => by
    rw [hexec, loadX, readData_after, bits_xWidth]
    rfl

end

/-- Settles O51: every form reads its data and writes them to its index register. -/
theorem ldxLdyLoad : Obligations.LdxLdyLoad := by
  have ldx : ∀ s data, State.ldx s data = (s.setX data).setNZ s.xWidth data := fun _ _ => rfl
  have ldy : ∀ s data, State.ldy s data = (s.setY data).setNZ s.xWidth data := fun _ _ => rfl
  refine ⟨fun v => ⟨?_, ?_, ?_, ?_, ?_, ?_⟩, fun ll => ⟨?_, ?_, ?_, ?_⟩⟩
  · exact loadsIndex_of_immX setX_writes ldx fun _ => rfl
  · exact loadsIndex_of_immX setY_writes ldy fun _ => rfl
  · exact loadsIndex_of_loadX setX_writes ldx fun _ => rfl
  · exact loadsIndex_of_loadX setY_writes ldy fun _ => rfl
  · exact loadsIndex_of_loadX setX_writes ldx fun _ => rfl
  · exact loadsIndex_of_loadX setY_writes ldy fun _ => rfl
  · exact loadsIndex_of_loadX setX_writes ldx fun _ => rfl
  · exact loadsIndex_of_loadX setY_writes ldy fun _ => rfl
  · exact loadsIndex_of_loadX setX_writes ldx fun _ => rfl
  · exact loadsIndex_of_loadX setY_writes ldy fun _ => rfl

/-! ### Stores (R314 to R317) -/

/-- The mode's pointer is read, the word is written at the width to the mode's two different addresses, and `PC` moves on. -/
theorem storesAt_of_writeData {i : Instr} {n v : State → Nat} {pointer : State → List Addr} {ea : State → DataAddr} {len : Word}
    (width : State → Width) (data : State → Word) (hn : ∀ s, bits (width s) = n s)
    (hv : ∀ s, (data s).toNat % 2 ^ n s = v s % 2 ^ n s) (hne : ∀ s, (ea s).lo ≠ (ea s).hi)
    (hexec : ∀ s, exec i s = .next (((s.perform (readsAt (pointer s))).writeData (width s) (ea s) (data s)).advance len)) :
    StoresAt i n v pointer ea len := by
  intro s hwf
  have written : dataWrites (n s) (ea s) (data s).toNat = dataWrites (n s) (ea s) (v s) := by
    rw [← hn, ← dataWrites_mod, hn, hv, ← hn, dataWrites_mod]
  refine ⟨_, hexec s, ?_⟩
  rw [writeData_eq, hn, written, ← State.perform_append]
  exact ⟨by simp, (frame_advance _ _ _ _).2 (readsThenData_frame hwf _ _ (hne s) _)⟩

/-- STX or STY, by the register it stores: the modes read no pointer. -/
theorem storesAt_of_store_xWidth {i : Instr} {reg : State → Word} {ea : State → DataAddr} {len : Word}
    (hne : ∀ s, (ea s).lo ≠ (ea s).hi) (hexec : ∀ s, exec i s = store s.xWidth (reg s) (found ea) len s) :
    StoresAt i State.xBits (fun s => (reg s).toNat % 2 ^ s.xBits) (fun _ => []) ea len :=
  storesAt_of_writeData State.xWidth reg bits_xWidth (by simp) hne hexec

/-- Settles O52: every form reads its pointer, if it has one, and writes its register or zero. -/
theorem storesStore : Obligations.StoresStore := by
  refine ⟨fun mode => ?sta, fun mode => ?stz, fun v => ⟨?_, ?_⟩, fun ll => ⟨?_, ?_, ?_, ?_⟩⟩
  case sta =>
    exact storesAt_of_writeData State.mWidth State.acc bits_mWidth (by simp) mode.ea_ne fun s => by
      rw [exec_staOf, mode.find_after]
  case stz => exact storesAt_of_writeData State.mWidth (fun _ => 0) bits_mWidth (by simp) mode.ea_ne (exec_stzOf mode)
  · exact storesAt_of_store_xWidth (fun _ => flatAddr_ne _) fun _ => rfl
  · exact storesAt_of_store_xWidth (fun _ => flatAddr_ne _) fun _ => rfl
  · exact storesAt_of_store_xWidth (fun s => directPair_ne s _ _ _) fun _ => rfl
  · exact storesAt_of_store_xWidth (fun s => directPair_ne s _ _ _) fun _ => rfl
  · exact storesAt_of_store_xWidth (fun s => directPair_ne s _ _ _) fun _ => rfl
  · exact storesAt_of_store_xWidth (fun s => directPair_ne s _ _ _) fun _ => rfl

/-! ### Transfers that set flags (R390 to R394, R396 to R400, R402 to R404) -/

/-- A register is written, `n` and `z` follow a word that has the low `n` bits of the value, and `PC` moves on. -/
theorem copiesInto_of_setNZ {i : Instr} {reg value : State → Word} {w : Writes} {n : State → Nat} (written : State → State)
    (width : State → Width) (data : State → Word) (hn : ∀ s, bits (width s) = n s)
    (hdata : ∀ s, (data s).toNat % 2 ^ n s = (value s).toNat % 2 ^ n s) (hw : w.flags = 0x00#8)
    (hframe : ∀ s, Frame w s (written s)) (hPC : ∀ s, (written s).PC = s.PC)
    (hexec : ∀ s, exec i s = .next (((written s).setNZ (width s) (data s)).advance 1))
    (hreg : ∀ s, reg (((written s).setNZ (width s) (data s)).advance 1) = value s) : CopiesInto i reg w n value := by
  intro s
  obtain ⟨signZero, -⟩ := setNZ_spec (written s) (width s) (data s)
  rw [hn, hdata] at signZero
  exact ⟨_, hexec s, hreg s, signZero, congrArg (· + 1) (hPC s), (frame_advance _ _ _ _).2 ((hframe s).setNZ hw _ _)⟩

/-- An index register of 8 bits keeps the low byte (R390). -/
theorem indexKept_toNat_mod (s : State) (v : Word) : v.toNat % 2 ^ s.xBits = (indexKept s.x v).toNat % 2 ^ s.xBits := by
  unfold indexKept State.xBits
  cases s.x <;> simp

/-- An accumulator of 8 bits keeps `B` (R390). -/
theorem word_B_toNat_mod (s : State) (v : Word) :
    v.toNat % 2 ^ s.mBits = (if s.m then word s.B (lo8 v) else v).toNat % 2 ^ s.mBits := by
  unfold State.mBits
  cases s.m <;> simp

section
variable {i : Instr} {data : State → Word}

theorem copiesInto_X (hexec : ∀ s, exec i s = .next (((s.setX (data s)).setNZ s.xWidth (data s)).advance 1)) :
    CopiesInto i State.X { X := true } State.xBits (fun s => indexKept s.x (data s)) :=
  copiesInto_of_setNZ (fun s => s.setX (data s)) State.xWidth data bits_xWidth (fun s => indexKept_toNat_mod s _) rfl
    (fun s => setX_frame s _) (fun _ => rfl) hexec fun _ => rfl

theorem copiesInto_Y (hexec : ∀ s, exec i s = .next (((s.setY (data s)).setNZ s.xWidth (data s)).advance 1)) :
    CopiesInto i State.Y { Y := true } State.xBits (fun s => indexKept s.x (data s)) :=
  copiesInto_of_setNZ (fun s => s.setY (data s)) State.xWidth data bits_xWidth (fun s => indexKept_toNat_mod s _) rfl
    (fun s => setY_frame s _) (fun _ => rfl) hexec fun _ => rfl

theorem copiesInto_acc (hexec : ∀ s, exec i s = .next (((s.setAcc (data s)).setNZ s.mWidth (data s)).advance 1)) :
    CopiesInto i State.C { C := true } State.mBits (fun s => if s.m then word s.B (lo8 (data s)) else data s) :=
  copiesInto_of_setNZ (fun s => s.setAcc (data s)) State.mWidth data bits_mWidth (fun s => word_B_toNat_mod s _) rfl
    (fun s => setC_frame s _) (fun _ => rfl) hexec fun _ => rfl

theorem copiesInto_C16 (hexec : ∀ s, exec i s = .next (((s.setC (data s)).setNZ .w16 (data s)).advance 1)) :
    CopiesInto i State.C { C := true } (fun _ => 16) data :=
  copiesInto_of_setNZ (fun s => s.setC (data s)) (fun _ => .w16) data (fun _ => rfl) (fun _ => rfl) rfl
    (fun s => setC_frame s _) (fun _ => rfl) hexec fun _ => rfl

end

/-- XBA's flags are those of the new `A` (R404). -/
theorem xba_copies : CopiesInto .xba State.C { C := true } (fun _ => 8) (fun s => word s.A s.B) :=
  copiesInto_of_setNZ (fun s => s.setC (word s.A s.B)) (fun _ => .w8) (fun s => zext16 s.B) (fun _ => rfl)
    (fun s => by simp) rfl (fun s => setC_frame s _) (fun _ => rfl) (fun _ => rfl) fun _ => rfl

theorem tcd_copies : CopiesInto .tcd State.D { D := true } (fun _ => 16) State.C :=
  copiesInto_of_setNZ (fun s => s.setD s.C) (fun _ => .w16) State.C (fun _ => rfl) (fun _ => rfl) rfl
    (fun s => setD_frame s _) (fun _ => rfl) (fun _ => rfl) fun _ => rfl

/-- Settles O58: each transfer writes its register at that register's width. -/
theorem transfersCopy : Obligations.TransfersCopy :=
  ⟨copiesInto_X fun _ => rfl, copiesInto_Y fun _ => rfl, copiesInto_X fun _ => rfl, copiesInto_X fun _ => rfl,
    copiesInto_Y fun _ => rfl, copiesInto_acc fun _ => rfl, copiesInto_acc fun _ => rfl, tcd_copies, copiesInto_C16 fun _ => rfl,
    copiesInto_C16 fun _ => rfl, xba_copies⟩

/-! ### TXS, TCS and XCE (R395, R401, R406) -/

theorem bitAt_statusForced_eq (e : Bool) (p : Byte) (k : Nat) :
    bitAt (statusForced e p) k = (bitAt p k || (e && (0x30#8).getLsbD k)) := by
  cases e <;> simp [bitAt, statusForced]

/-- Forcing `m` and `x` is not seen through a mask without them. -/
theorem statusForced_and_mask (e : Bool) (p : Byte) {mask : Byte} (h : 0x30#8 &&& mask = 0x00#8) :
    statusForced e p &&& mask = p &&& mask := by
  cases e with
  | false => rfl
  | true => rw [statusForced, if_pos rfl, BitVec.and_or_distrib_right, h, BitVec.or_zero]

/-- The exchange of `c` and `e` under the forcing rule: each flag and register that it writes, and nothing else. -/
theorem exchange_spec (s : State) :
    let t := (s.setCarry s.e).setE s.c
    t.e = s.c ∧ t.c = s.e ∧ t.m = (s.m || s.c) ∧ t.x = (s.x || s.c) ∧ t.S = stackForced s.c s.S ∧
    t.X = indexKept t.x s.X ∧ t.Y = indexKept t.x s.Y ∧
    Frame { S := true, X := true, Y := true, e := true, flags := 0x31#8 } s t := by
  intro t
  have bit : ∀ k < 8, bitAt t.P k = (if k = 0 then s.e else bitAt s.P k || (s.c && (0x30#8).getLsbD k)) := by
    intro k hk
    show bitAt (statusForced s.c (putBit s.P 0 s.e)) k = _
    rw [bitAt_statusForced_eq, bitAt_putBit _ _ _ _ (by decide) hk]
    split
    · next zero => simp [zero]
    · rfl
  refine ⟨rfl, ?_, ?_, ?_, rfl, rfl, rfl, ?_⟩
  · exact bit 0 (by decide)
  · exact (bit 5 (by decide)).trans (by simp [State.m])
  · exact (bit 4 (by decide)).trans (by simp [State.x])
  · have status : t.P &&& ~~~0x31#8 = s.P &&& ~~~0x31#8 :=
      (statusForced_and_mask _ _ (by decide)).trans (putBit_and_mask _ _ _ _ (by decide))
    exact { Frame.refl (w := { S := true, X := true, Y := true, e := true, flags := 0x31#8 }) rfl s with
      S := .inl rfl, X := .inl rfl, Y := .inl rfl, e := .inl rfl, P := status }

/-- Settles O59: TXS and TCS are the write to `S`, and XCE is the exchange. -/
theorem stackTransfersAndXce : Obligations.StackTransfersAndXce := by
  intro s
  obtain ⟨e, c, m, x, stack, keptX, keptY, frame⟩ := exchange_spec s
  exact ⟨⟨_, rfl, rfl, rfl, (frame_advance _ _ _ _).2 (setS_frame s _)⟩,
    ⟨_, rfl, rfl, rfl, (frame_advance _ _ _ _).2 (setS_frame s _)⟩,
    ⟨_, rfl, e, c, m, x, stack, keptX, keptY, rfl, (frame_advance _ _ _ _).2 frame⟩⟩

/-! ### NOP, WDM, STP and WAI (R340, R341, R381, R383) -/

/-- Settles O55: `PC` moves, and STP and WAI write `run`. -/
theorem idleInstructions : Obligations.IdleInstructions := fun _ s =>
  ⟨⟨_, rfl, rfl, rfl, rfl, (frame_advance _ _ _ _).2 (Frame.refl rfl s)⟩,
    ⟨_, rfl, rfl, rfl, rfl, (frame_advance _ _ _ _).2 (Frame.refl rfl s)⟩,
    ⟨_, rfl, rfl, rfl, (frame_advance _ _ _ _).2 (setRun_frame s .stopped)⟩,
    ⟨_, rfl, rfl, rfl, (frame_advance _ _ _ _).2 (setRun_frame s .waiting)⟩⟩

end Sys2Proof.Machine
end

section
/-! The statements of the stack instructions (`51_stack.md`): a push as writes below `S` and a pull as reads above it, each with the
move of `S`, and the register that a pull writes. -/

namespace Sys2Proof.Machine

/-! ### Pushes (R345 to R352, R360 to R362, R366) -/

theorem pushesByte_of_push8 {i : Instr} {age : Age} {v : State → Byte}
    (hexec : ∀ s, exec i s = .next ((s.push8 age (v s)).advance 1)) : PushesByte i age v := by
  intro s hwf
  have frame := moveS_frame (perform_frame hwf [.write (s.stackAddr age 0) (v s)] (by simp [storesOf])) (-1)
  exact ⟨_, hexec s, by simp [push8_eq], by simp [push8_eq], (frame_advance _ _ _ _).2 frame⟩

/-- A push of 16 bits after reads: the two writes go to different addresses (R75). -/
theorem pushesWord_of_push16 {i : Instr} {age : Age} (before : State → List Addr) {v : State → Word} {len : Word}
    (hexec : ∀ s, exec i s = .next (((s.perform (readsAt (before s))).push16 age (v s)).advance len)) :
    PushesWord i age (fun s => readsAt (before s)) v len := by
  intro s hwf
  have nodup : (storesOf (readsAt (before s) ++ s.pushes16 age (v s))).Nodup := by
    rw [storesOf_append, storesOf_readsAt, List.nil_append]
    exact pushes16_nodup s age _
  have frame := moveS_frame (perform_frame hwf _ nodup) (-2)
  have pushed : (s.perform (readsAt (before s))).push16 age (v s) =
      (s.perform (readsAt (before s) ++ s.pushes16 age (v s))).moveS (-2) := by
    rw [push16_eq, State.perform_stackAddr, State.perform_stackAddr, ← State.perform_append, State.pushes16]
  rw [← pushed] at frame
  exact ⟨_, hexec s, by simp [pushed], by simp [pushed], (frame_advance _ _ _ _).2 frame⟩

@[simp] theorem pushWidth_PC (s : State) (age : Age) (w : Width) (v : Word) : (s.pushWidth age w v).PC = s.PC := by
  cases w with
  | w8 => simp [State.pushWidth, push8_eq]
  | w16 => simp [State.pushWidth, push16_eq]

/-- A push of a register at a width is the push of one byte or of 16 bits (R359). -/
theorem pushesRegister_of_pushWidth {i : Instr} {narrow : State → Bool} {reg : State → Word}
    (hexec : ∀ s, exec i s = .next ((s.pushWidth .old (widthOf (narrow s)) (reg s)).advance 1)) :
    PushesRegister i narrow reg := by
  intro s hwf
  have byteFrame := moveS_frame (perform_frame hwf [.write (s.stackAddr .old 0) (lo8 (reg s))] (by simp [storesOf])) (-1)
  have wordFrame := moveS_frame (perform_frame hwf _ (pushes16_nodup s .old (reg s))) (-2)
  refine ⟨_, hexec s, fun isNarrow => ?_, fun isWide => ?_, ?_⟩
  · have pushed : s.pushWidth .old .w8 (reg s) = (s.perform [.write (s.stackAddr .old 0) (lo8 (reg s))]).moveS (-1) := rfl
    rw [isNarrow, widthOf, if_pos rfl, frame_advance, pushed]
    exact ⟨by simp, byteFrame⟩
  · have pushed : s.pushWidth .old .w16 (reg s) = (s.perform (s.pushes16 .old (reg s))).moveS (-2) := rfl
    rw [isWide, widthOf, if_neg Bool.false_ne_true, frame_advance, pushed]
    exact ⟨by simp, wordFrame⟩
  · rw [State.advance_PC, pushWidth_PC]

/-- What is pushed of a register at a width does not depend on bits outside it. -/
theorem pushWidth_truncWord (s : State) (age : Age) (w : Width) (v : Word) :
    s.pushWidth age w (truncWord w v) = s.pushWidth age w v := by
  cases w with
  | w8 => simp [State.pushWidth, truncWord]
  | w16 => rfl

/-- The pair that PEI reads: it never wraps in the page (R347). -/
theorem eaDirNew_eq (ll : Byte) (s : State) :
    eaDirNew ll s = { lo := addr 0 (s.D + zext16 ll), hi := addr 0 (s.D + zext16 ll + 1) } := by
  simp [eaDirNew, State.directPair, directAddr_new]

/-- Settles O56: each of the ten is one of the three pushes. -/
theorem pushesPush : Obligations.PushesPush := by
  refine ⟨?pha, ?phx, ?phy, ?phb, ?phk, ?php, ?phd, fun v => ?pea, fun ll => ?pei, fun v => ?per⟩
  case pha =>
    exact pushesRegister_of_pushWidth fun s =>
      congrArg (fun t => Host.Outcome.next (State.advance t 1)) (pushWidth_truncWord s .old s.mWidth s.C)
  case phx => exact pushesRegister_of_pushWidth fun _ => rfl
  case phy => exact pushesRegister_of_pushWidth fun _ => rfl
  case phb => exact pushesByte_of_push8 fun _ => rfl
  case phk => exact pushesByte_of_push8 fun _ => rfl
  case php => exact pushesByte_of_push8 fun _ => rfl
  case phd => exact pushesWord_of_push16 (fun _ => []) fun _ => rfl
  case pea => exact pushesWord_of_push16 (fun _ => []) fun _ => rfl
  case pei =>
    refine pushesWord_of_push16 (fun s => [addr 0 (s.D + zext16 ll), addr 0 (s.D + zext16 ll + 1)]) fun s => ?_
    have arm : exec (.pei ll) s = execPei ll s := rfl
    rw [arm, execPei, eaDirNew_eq, read16_value, read16_after]
    rfl
  case per =>
    refine pushesWord_of_push16 (fun _ => []) fun s => ?_
    rw [← rel16Target_eq_ofNat]
    rfl

/-! ### Pulls (R353 to R355, R363, R367 to R369) -/

/-- Data that are pulled fit their width. -/
theorem pullWidth_lt (s : State) (age : Age) (w : Width) : (s.pullWidth age w).value.toNat < 2 ^ bits w := by
  rw [pullWidth_toNat]
  exact dataNat_lt s w _

/-- A pull alone leaves `P`, whatever register it is for. -/
@[simp] theorem pullWidth_P (s : State) (age : Age) (w : Width) : (s.pullWidth age w).after.P = s.P := by
  simp [pullWidth_after]

/-- After the reads and the move of `S` a register is written, and `n` and `z` follow what is written. -/
theorem WritesRegister.after_pull {put : State → Word → State} {reg : State → Nat} {width : State → Width} {w : Writes}
    (hput : WritesRegister put reg width w) {s t : State} {l : List Access} (reads : Frame { accesses := l } s t) (k : Word) {v : Word}
    (fits : v.toNat < 2 ^ bits (width s)) :
    let u := ((put (t.moveS k) v).setNZ (width s) v).advance 1
    reg u = v.toNat ∧ SignZero (bits (width s)) v.toNat u ∧ u.S = t.stackMoved k ∧ u.PC = t.PC + 1 ∧
    Frame { w with S := true, flags := flagsNZ, accesses := l } s u := by
  intro u
  have same : width (t.moveS k) = width s := hput.width ((moveS_P t k).trans (reads.P_eq rfl))
  have held := hput.reg (s := t.moveS k) (by rwa [same]) 1
  rw [same] at held
  have moved : Frame { w with S := true } t (t.moveS k) :=
    (Frame.refl (w := { w with S := true }) hput.accesses t).moveS rfl k
  have written : Frame { w with S := true } (t.moveS k) (put (t.moveS k) v) := { hput.frame _ v with S := .inl rfl }
  have flagged := (moved.trans written hput.accesses).setNZ hput.flags (width s) v
  refine ⟨held, setNZ_signZero fits _, (hput.S _ _).trans (moveS_S t k), congrArg (· + 1) (hput.PC _ _), ?_⟩
  exact (frame_advance _ _ _ _).2 (reads.after flagged hput.accesses)

/-- A pull into a register is its reads, the move of `S`, and the write of the register. -/
theorem pullsInto_of_pullWidth {i : Instr} {age : Age} {n : State → Nat} {put : State → Word → State} {reg : State → Nat}
    {width : State → Width} {w : Writes} (hput : WritesRegister put reg width w) (hn : ∀ s, bits (width s) = n s)
    (hexec : ∀ s, exec i s =
      let v := s.pullWidth age (width s)
      .next (((put v.after v.value).setNZ (width s) v.value).advance 1)) : PullsInto i age n reg w := by
  intro s
  have pulled := hput.after_pull (perform_reads_frame s (dataBytes (bits (width s)) (s.pulledPair age)))
    (pullStep (bits (width s))) (pullWidth_lt s age (width s))
  rw [← pullWidth_after, pullWidth_toNat, State.perform_stackMoved, State.perform_PC, hn] at pulled
  exact ⟨_, hexec s, pulled⟩

theorem exec_pla (s : State) : exec .pla s =
    let v := s.pullWidth .old s.mWidth
    .next (((v.after.setAcc v.value).setNZ s.mWidth v.value).advance 1) := by
  have arm : exec .pla s = execPla s := rfl
  have width : (s.pullWidth .old s.mWidth).after.mWidth = s.mWidth := mWidth_congr (pullWidth_P s _ _)
  rw [arm, execPla, State.putAccNZ, width]

theorem exec_plb (s : State) : exec .plb s =
    let v := s.pullWidth .new .w8
    .next (((v.after.setDBR (lo8 v.value)).setNZ .w8 v.value).advance 1) := by
  have arm : exec .plb s = execPlb s := rfl
  rw [arm, execPlb]
  simp only [State.pullWidth, lo8_zext16]

/-- PLA keeps `B` when `m = 1` (R353). -/
theorem pla_keeps_B {s t : State} (h : exec .pla s = .next t) (hm : s.m = true) : t.B = s.B := by
  rw [exec_pla] at h
  obtain rfl := Host.Outcome.next.inj h
  have narrow : (s.pullWidth .old s.mWidth).after.m = true := (congrArg (bitAt · 5) (pullWidth_P s _ _)).trans hm
  exact ((setAcc_spec _ _).2 narrow).trans (by rw [pullWidth_after]; simp [State.B])

/-- PLP is a pull of one byte and the write of it to all of `P` (R369). -/
theorem plp_pulls (s : State) : ∃ t, exec .plp s = .next t ∧
    t.P = (if s.e then s.read (s.stackAddr .old 1) ||| 0x30#8 else s.read (s.stackAddr .old 1)) ∧
    t.X = indexKept t.x s.X ∧ t.Y = indexKept t.x s.Y ∧ t.S = s.stackMoved 1 ∧ t.PC = s.PC + 1 ∧
    Frame { S := true, X := true, Y := true, flags := 0xFF#8, accesses := [.read (s.stackAddr .old 1)] } s t := by
  have arm : exec .plp s = .next ((((s.perform (readsAt [s.stackAddr .old 1])).moveS 1).setP
    (s.read (s.stackAddr .old 1))).advance 1) := rfl
  have reads := perform_reads_frame s [s.stackAddr .old 1]
  obtain ⟨status, writtenX, writtenY, frame⟩ :=
    setP_spec ((s.perform (readsAt [s.stackAddr .old 1])).moveS 1) (s.read (s.stackAddr .old 1))
  rw [moveS_e, State.perform_e] at status
  rw [moveS_X, State.perform_X] at writtenX
  rw [moveS_Y, State.perform_Y] at writtenY
  have moved := (Frame.refl (w := { S := true, X := true, Y := true, flags := 0xFF#8 }) rfl
    (s.perform (readsAt [s.stackAddr .old 1]))).moveS rfl 1
  have written := moved.trans { frame with S := .inl rfl } rfl
  exact ⟨_, arm, status, writtenX, writtenY, by simp, by simp, (frame_advance _ _ _ _).2 (reads.after written rfl)⟩

/-- Settles O57: each of the five is a pull into its register, and PLP is a pull into `P` under the forcing rule. -/
theorem pullsPull : Obligations.PullsPull := by
  refine ⟨fun _ _ => pla_keeps_B, ?pla, ?plx, ?ply, ?plb, ?pld, fun s => ?plp⟩
  case pla => exact pullsInto_of_pullWidth setAcc_writes bits_mWidth exec_pla
  case plx => exact pullsInto_of_pullWidth setX_writes bits_xWidth fun _ => rfl
  case ply => exact pullsInto_of_pullWidth setY_writes bits_xWidth fun _ => rfl
  case plb => exact pullsInto_of_pullWidth setDBR_writes (fun _ => rfl) exec_plb
  case pld => exact pullsInto_of_pullWidth setD_writes (fun _ => rfl) fun _ => rfl
  case plp => exact plp_pulls s

end Sys2Proof.Machine
end

section
/-! The statements of block moves (`49_block_move.md`): one execution, and what has been moved after `n` of them, by induction on `n`. -/

namespace Sys2Proof.Machine

/-! ### One execution (R331) -/

/-- The registers after one byte has been moved, `PC` still where it was (R331). -/
theorem moveByte_registers (s : State) (delta : Word) (tt ss : Byte) :
    let t := s.moveByte delta tt ss
    t.DBR = tt ∧ t.C = s.C - 1 ∧ t.X = indexKept s.x (s.X + delta) ∧ t.Y = indexKept s.x (s.Y + delta) ∧ t.PC = s.PC := by
  intro t
  obtain ⟨l, ht⟩ : ∃ l, t = ((((s.perform l).setDBR tt).setC (s.C - 1)).setX (s.X + delta)).setY (s.Y + delta) :=
    ⟨_, moveByte_eq s delta tt ss⟩
  have flag := s.perform_x l
  have pc := s.perform_PC l
  generalize s.perform l = u at ht flag pc
  rw [ht, ← flag]
  exact ⟨rfl, rfl, rfl, rfl, pc⟩

/-- One execution of a block move whose index registers step by `delta` (R331 to R334). -/
theorem blockMove_spec {s : State} (hwf : Memory.wf s.mem = true) (delta : Word) (tt ss : Byte) :
    ∃ t, blockMove delta tt ss s = .next t ∧ t.DBR = tt ∧ t.C = s.C - 1 ∧ t.X = indexKept s.x (s.X + delta) ∧
      t.Y = indexKept s.x (s.Y + delta) ∧ t.PC = (if t.C = 0xFFFF#16 then s.PC + 3 else s.PC) ∧
      Frame { C := true, DBR := true, X := true, Y := true,
              accesses := [.read (addr ss s.X), .write (addr tt s.Y) (s.read (addr ss s.X))] } s t := by
  have frame : Frame { C := true, DBR := true, X := true, Y := true,
                       accesses := [.read (addr ss s.X), .write (addr tt s.Y) (s.read (addr ss s.X))] }
      s (s.moveByte delta tt ss) := moveByte_frame hwf delta tt ss
  obtain ⟨bank, counter, uX, uY, uPC⟩ := moveByte_registers s delta tt ss
  unfold blockMove
  dsimp only
  generalize s.moveByte delta tt ss = u at frame bank counter uX uY uPC ⊢
  rw [← uPC]
  split
  · next last => exact ⟨_, rfl, bank, counter, uX, uY, (if_pos last).symm, (frame_advance _ _ _ _).2 frame⟩
  · next more => exact ⟨_, rfl, bank, counter, uX, uY, (if_neg more).symm, frame⟩

/-- MVN is the block move that steps up, MVP the one that steps down (R332, R334). -/
theorem exec_blockMove {tt ss : Byte} {p : Instr × Word} (hp : p ∈ [(Instr.mvn tt ss, (1 : Word)), (.mvp tt ss, -1)]) (s : State) :
    exec p.1 s = blockMove p.2 tt ss s := by
  simp only [List.mem_cons, List.not_mem_nil, or_false] at hp
  obtain rfl | rfl := hp
  · rfl
  · rfl

/-- Settles O53: MVN and MVP are the one block move, each with the step of its index registers. -/
theorem blockMoveMovesOneByte : Obligations.BlockMoveMovesOneByte := by
  intro tt ss s hwf p hp
  obtain ⟨t, moved⟩ := blockMove_spec hwf p.2 tt ss
  exact ⟨t, by rwa [exec_blockMove hp]⟩

/-! ### Executions one after another -/

/-- One execution more, after `n` of them. -/
theorem repeatExec_succ {i : Instr} {n : Nat} {s t : State} (h : repeatExec i n s = .next t) :
    repeatExec i (n + 1) s = exec i t := by
  induction n generalizing s with
  | zero =>
    obtain rfl := Host.Outcome.next.inj h
    unfold repeatExec
    cases exec i s <;> rfl
  | succ n ih =>
    unfold repeatExec at h ⊢
    cases hs : exec i s with
    | next u =>
      rw [hs] at h
      exact ih h
    | fault r => nomatch r
    | refused r =>
      rw [hs] at h
      cases h

/-! ### The addresses of the bytes (R336) -/

/-- An index register `n` steps on: all 16 bits wrap, or with `x = 1` the low byte does (R336). -/
def steppedIndex (x : Bool) (v delta : Word) (n : Nat) : Word := indexKept x (v + delta * BitVec.ofNat 16 n)

theorem steppedIndex_zero {x : Bool} {v : Word} (h : x = true → hi8 v = 0x00#8) (delta : Word) : steppedIndex x v delta 0 = v := by
  have start : v + delta * BitVec.ofNat 16 0 = v := by simp
  rw [steppedIndex, start]
  exact indexForced_of_high h

theorem steppedIndex_succ (x : Bool) (v delta : Word) (n : Nat) :
    indexKept x (steppedIndex x v delta n + delta) = steppedIndex x v delta (n + 1) := by
  have sum : v + delta * BitVec.ofNat 16 n + delta = v + delta * BitVec.ofNat 16 (n + 1) := by
    rw [BitVec.ofNat_add, mul_add, ← add_assoc]
    simp
  unfold steppedIndex
  rw [← sum]
  cases x <;> simp [indexKept]

/-- Two index registers that step together are back at an earlier place together. -/
theorem steppedIndex_eq_of_eq {x : Bool} {v delta : Word} {j k : Nat} (h : steppedIndex x v delta j = steppedIndex x v delta k)
    (u : Word) : steppedIndex x u delta j = steppedIndex x u delta k := by
  cases x with
  | false =>
    have same : delta * BitVec.ofNat 16 j = delta * BitVec.ofNat 16 k := by simpa [steppedIndex, indexKept] using h
    rw [steppedIndex, steppedIndex, same]
  | true =>
    have same := congrArg lo8 h
    simp only [steppedIndex, indexKept, if_true, lo8_zext16, lo8_add, BitVec.add_right_inj] at same
    simp only [steppedIndex, indexKept, if_true, lo8_add, same]

/-- The address that byte `k` of a block goes to (R149). -/
def State.destAt (s : State) (tt : Byte) (delta : Word) (k : Nat) : Addr := addr tt (steppedIndex s.x s.Y delta k)

/-- The address that byte `k` of a block comes from (R149). -/
def State.sourceAt (s : State) (ss : Byte) (delta : Word) (k : Nat) : Addr := addr ss (steppedIndex s.x s.X delta k)

/-- Bytes that go to one address come from one address. -/
theorem sourceAt_eq_of_destAt_eq {s : State} {tt : Byte} {delta : Word} {j k : Nat} (h : s.destAt tt delta j = s.destAt tt delta k)
    (ss : Byte) : s.sourceAt ss delta j = s.sourceAt ss delta k :=
  congrArg (addr ss) (steppedIndex_eq_of_eq (addr_inj.1 h) s.X)

/-! ### What `n` executions have moved (R330 to R337) -/

/-- No byte is read after it has been written, and no byte read or written is a device's (R337). -/
structure Untangled (s : State) (tt ss : Byte) (delta : Word) : Prop where
  order : ∀ j k : Nat, j < k → k ≤ s.C.toNat → s.destAt tt delta j ≠ s.sourceAt ss delta k
  kinds : ∀ k : Nat, k ≤ s.C.toNat →
    s.kindAt (s.destAt tt delta k) ≠ .device ∧ s.kindAt (s.sourceAt ss delta k) ≠ .device

/-- From `s` to `t` the first `n` bytes of a block have been moved. -/
structure BlockMoved (tt ss : Byte) (delta : Word) (s : State) (n : Nat) (t : State) : Prop where
  C : t.C = s.C - BitVec.ofNat 16 n
  X : t.X = steppedIndex s.x s.X delta n
  Y : t.Y = steppedIndex s.x s.Y delta n
  DBR : 0 < n → t.DBR = tt
  PC : t.PC = if n ≤ s.C.toNat then s.PC else s.PC + 3
  P : t.P = s.P
  regions : t.regions = s.regions
  wf : Memory.wf t.mem = true
  kept : ∀ a : Addr, s.kindAt a ≠ .device → (∀ k < n, s.kindAt (s.destAt tt delta k) = .ram → a ≠ s.destAt tt delta k) →
    t.read a = s.read a
  copied : Untangled s tt ss delta → ∀ k < n, s.kindAt (s.destAt tt delta k) = .ram →
    t.read (s.destAt tt delta k) = s.read (s.sourceAt ss delta k)

/-- Before the first execution nothing has been moved. -/
theorem BlockMoved.zero {s : State} (hinv : Inv s) (tt ss : Byte) (delta : Word) : BlockMoved tt ss delta s 0 s := by
  obtain ⟨⟨-, narrow⟩, hwf⟩ := hinv
  exact {
    C := by simp
    X := (steppedIndex_zero (fun hx => (narrow hx).1) delta).symm
    Y := (steppedIndex_zero (fun hx => (narrow hx).2) delta).symm
    DBR := fun h => absurd h (Nat.lt_irrefl 0)
    PC := (if_pos (Nat.zero_le _)).symm
    P := rfl
    regions := rfl
    wf := hwf
    kept := fun _ _ _ => rfl
    copied := fun _ _ h => absurd h (Nat.not_lt_zero _) }

theorem ram_or_rom {kind : MemKind} (h : kind ≠ .device) : kind = .ram ∨ kind = .rom := by
  cases kind with
  | ram => exact .inl rfl
  | rom => exact .inr rfl
  | device => exact absurd rfl h

/-- A byte that is no device's changes only if it is the one written and is RAM (R79, R83). -/
theorem Frame.read_eq_of_moved {w : Writes} {s t : State} (h : Frame w s t) {a b c : Addr} {v : Byte}
    (hw : w.accesses = [.read a, .write b v]) (hk : s.kindAt c ≠ .device) (hc : s.kindAt b = .ram → c ≠ b) :
    t.read c = s.read c := by
  by_cases same : c = b
  · subst same
    have rom : s.kindAt c = .rom := (ram_or_rom hk).resolve_left fun ram => hc ram rfl
    exact (h.stored c v (by simp [hw])).2 rom
  · exact h.read_eq (by simp [hw, storesOf, same]) hk

theorem wf_of_blockMove {s t : State} {delta : Word} {tt ss : Byte} (hwf : Memory.wf s.mem = true)
    (h : blockMove delta tt ss s = .next t) : Memory.wf t.mem = true := by
  obtain ⟨u, hu, l, hl⟩ := blockMove_onlyAccesses (s := s) (delta := delta) (tt := tt) (ss := ss)
  obtain rfl : u = t := by simpa [h] using hu.symm
  obtain ⟨hmem, -, -, -⟩ := bus_eq_iff.1 hl
  exact hmem ▸ State.wf_perform hwf l

/-- `C` has become `$FFFF` after `C + 1` bytes and not before (R331). -/
theorem counter_eq_ffff_iff {c : Word} {n : Nat} (hn : n ≤ c.toNat) :
    c - BitVec.ofNat 16 (n + 1) = 0xFFFF#16 ↔ ¬ n + 1 ≤ c.toNat := by
  have := c.isLt
  rw [← BitVec.toNat_inj]
  simp
  omega

/-- One execution moves the next byte. -/
theorem BlockMoved.succ {tt ss : Byte} {delta : Word} {s t : State} {n : Nat} (h : BlockMoved tt ss delta s n t)
    (hn : n ≤ s.C.toNat) : ∃ u, blockMove delta tt ss t = .next u ∧ BlockMoved tt ss delta s (n + 1) u := by
  obtain ⟨u, moved, bank, counter, uX, uY, uPC, frame⟩ := blockMove_spec h.wf delta tt ss
  have flag : t.x = s.x := congrArg (bitAt · 4) h.P
  have source : addr ss t.X = s.sourceAt ss delta n := congrArg (addr ss) h.X
  have dest : addr tt t.Y = s.destAt tt delta n := congrArg (addr tt) h.Y
  have kind : ∀ a, t.kindAt a = s.kindAt a := State.kindAt_congr h.regions
  rw [source, dest] at frame
  have uC : u.C = s.C - BitVec.ofNat 16 (n + 1) := by
    rw [counter, h.C, BitVec.ofNat_add, sub_sub]
    rfl
  refine ⟨u, moved, ?_⟩
  constructor
  case C => exact uC
  case X => rw [uX, flag, h.X, steppedIndex_succ]
  case Y => rw [uY, flag, h.Y, steppedIndex_succ]
  case DBR => exact fun _ => bank
  case PC => simp only [uPC, h.PC, uC, counter_eq_ffff_iff hn, if_pos hn, ite_not]
  case P => exact (frame.P_eq rfl).trans h.P
  case regions => exact frame.regions.trans h.regions
  case wf => exact wf_of_blockMove h.wf moved
  case kept =>
    intro a hk apart
    have last : u.read a = t.read a :=
      frame.read_eq_of_moved rfl (by rwa [kind]) fun ram => apart n (Nat.lt_succ_self n) (by rwa [← kind])
    exact last.trans (h.kept a hk fun k hlt => apart k (Nat.lt_succ_of_lt hlt))
  case copied =>
    intro untangled k hk ram
    by_cases same : s.destAt tt delta k = s.destAt tt delta n
    · rw [sourceAt_eq_of_destAt_eq same ss, same]
      have written : u.read (s.destAt tt delta n) = t.read (s.sourceAt ss delta n) :=
        (frame.stored _ _ (by simp)).1 (by rwa [kind, ← same])
      exact written.trans (h.kept _ (untangled.kinds n hn).2 fun j hj _ => (untangled.order j n hj hn).symm)
    · have earlier : k < n := lt_of_le_of_ne (Nat.le_of_lt_succ hk) fun e => same (by rw [e])
      have last : u.read (s.destAt tt delta k) = t.read (s.destAt tt delta k) :=
        frame.read_eq_of_moved rfl (by simp [kind, ram]) fun _ => same
      exact last.trans (h.copied untangled k earlier ram)

/-- After `n` executions, at most `C + 1`, the first `n` bytes have been moved. -/
theorem repeatExec_blockMoved {tt ss : Byte} {p : Instr × Word} (hp : p ∈ [(Instr.mvn tt ss, (1 : Word)), (.mvp tt ss, -1)])
    {s : State} (hinv : Inv s) {n : Nat} (hn : n ≤ s.C.toNat + 1) :
    ∃ t, repeatExec p.1 n s = .next t ∧ BlockMoved tt ss p.2 s n t := by
  induction n with
  | zero => exact ⟨s, rfl, .zero hinv tt ss p.2⟩
  | succ n ih =>
    obtain ⟨t, runs, moved⟩ := ih (Nat.le_of_succ_le hn)
    obtain ⟨u, next, movedNext⟩ := moved.succ (Nat.le_of_succ_le_succ hn)
    exact ⟨u, (repeatExec_succ runs).trans ((exec_blockMove hp t).trans next), movedNext⟩

/-- Settles O54: `n` bytes have been moved after `n` executions, and the whole block after `C + 1`. -/
theorem blockMoveMovesWholeBlock : Obligations.BlockMoveMovesWholeBlock := by
  intro tt ss s hinv p hp dest src
  refine ⟨fun n hn => ?part, ?whole⟩
  case part =>
    obtain ⟨t, runs, moved⟩ := repeatExec_blockMoved hp hinv (Nat.le_succ_of_le hn)
    have number : (BitVec.ofNat 16 n).toNat = n := BitVec.toNat_ofNat n 16 ▸ Nat.mod_eq_of_lt (hn.trans_lt s.C.isLt)
    refine ⟨t, runs, moved.PC.trans (if_pos hn), ?_⟩
    rw [moved.C, BitVec.toNat_sub_of_le (by rwa [BitVec.le_def, number]), number]
  case whole =>
    obtain ⟨t, runs, moved⟩ := repeatExec_blockMoved hp hinv le_rfl
    have count : BitVec.ofNat 16 (s.C.toNat + 1) = s.C + 1 := by simp [BitVec.ofNat_add]
    refine ⟨t, runs, ?_, ?_, ?_, moved.DBR (Nat.succ_pos _), ?_, moved.P, ?_, ?_⟩
    · exact moved.C.trans ((counter_eq_ffff_iff le_rfl).2 (Nat.not_succ_le_self _))
    · rw [moved.X, steppedIndex, count]
    · rw [moved.Y, steppedIndex, count]
    · exact moved.PC.trans (if_neg (Nat.not_succ_le_self _))
    · exact fun a apart hk => moved.kept a hk fun k hlt _ => apart k (Nat.le_of_lt_succ hlt)
    · intro order kinds k hk
      have untangled : Untangled s tt ss p.2 := ⟨order, kinds⟩
      obtain ⟨notDevice, -⟩ := kinds k hk
      obtain ram | rom := ram_or_rom notDevice
      · rw [if_neg (by simp [ram])]
        exact moved.copied untangled k (Nat.lt_succ_of_le hk) ram
      · rw [if_pos rom]
        refine moved.kept _ notDevice fun j _ ram e => ?_
        rw [← e, rom] at ram
        cases ram

end Sys2Proof.Machine
end
